-- ==== Sys2Proof/Word.lean ====
section
/-! DEFINITION. The word types of the block (00_scope.md R12): `u8`, `u16`, `u32` are bit vectors that
wrap only where a rule says so; a `Bit` is a `Bool` (1 is `true`); `Int` and `Nat` never wrap. -/

namespace Sys2Proof

/-- `u8` of R12: a data byte, a command byte, an operation code. -/
abbrev Byte := BitVec 8

/-- `u16` of R12: a CRC value or seed. -/
abbrev Word16 := BitVec 16

/-- `u32` of R12: a raw pattern, the Track's timestep. -/
abbrev Word32 := BitVec 32

/-- `Bit` of R12: one cell, one data bit; the source's `true` is 1. -/
abbrev Bit := Bool

end Sys2Proof
end

