-- ==== Sys2Proof/Config.lean ====
section
/-! DEFINITION. What the implementation fixes (00_scope.md R7, R8, R15), and the free values of the
writer's waits (R8, R242, R244). -/

namespace Sys2Proof.Config

/-- CRC_POLY (R7). -/
def crcPoly : Word16 := 0x1021#16

/-- CRC_DEFAULT_SEED (R7), the default of CRC_INIT's seed (R15). -/
def crcDefaultSeed : Word16 := 0xFFFF#16

/-- RAW_MAX_BITS (R7). -/
def rawMaxBits : Nat := 32

/-- RAW_DEFAULT_BITS (R7), the default of BT_RAW's nbits (R15). -/
def rawDefaultBits : Nat := 16

/-- PRECOMP_DEFAULT (R7, R15). -/
def precompDefault : Nat := 0

/-- WAIT_INDEX_DEFAULT (R7, R15). -/
def waitIndexDefault : Int := 1

/-- TIMER_WAIT_MAX (R7): the longest wait one wait-timer byte encodes; the shortest is 2. -/
def timerWaitMax : Nat := 129

/-- INDEX_WAIT_MAX (R7): the most index pulses one wait-index byte encodes. -/
def indexWaitMax : Nat := 63

/-- TRACK_CAP's value on this hardware, 512 KiB (R8, D12). The cap itself is a parameter and stands in
`State.trackCap` (log 7). -/
def trackCapDefault : Nat := 524288

/-- REF_CLOCK_PERIOD in nanoseconds (R8): informational, no rule depends on it. -/
def refClockPeriodNs : Nat := 10

/-- INDEX_WAIT_DURATION (R8, R242): the clocks the n-th drawn wait takes when it is an index wait. A free
value: nothing is known of it (log 8). -/
opaque indexWaitDuration : Nat → Nat

/-- HSTMD_WAIT_DURATION (R8, R244): the clocks the n-th drawn wait takes when it is a wait for the
host-mode signal. A free value: nothing is known of it (log 8). -/
opaque hstmdWaitDuration : Nat → Nat

end Sys2Proof.Config
end

