-- ==== Sys2Proof/Syntax.lean ====
section
/-! DEFINITION. The instructions: one constructor of `Instr` per row of the opcode table, the operation
requests of 30_encoding.md R91 and R92 and the command bytes of R95; and the two coded forms an
instruction has (R90). -/

namespace Sys2Proof

/-- `Gate` of R12; READ is encoded 0 and WRITE 1 (R38, R98). -/
inductive Gate where
  | read
  | write
deriving DecidableEq, Repr

/-- The instructions: 21 operations of the block (R92) and 6 commands of the writer (R95). Operands
have the types R92 gives them, command fields the widths R95 gives them. -/
inductive Instr where
  /-- CRC_INIT, R123. -/
  | crcInit (seed : Word16)
  /-- CRC_CALC, R124. -/
  | crcCalc (bytes : List Byte)
  /-- CRC_UPDATE, R125. -/
  | crcUpdate (bytes : List Byte)
  /-- CRC_UPDATE_BYTE, R126. -/
  | crcUpdateByte (b : Byte)
  /-- CRC_RESET, R127. -/
  | crcReset
  /-- CRC_RESEED, R128. -/
  | crcReseed (seed : Word16)
  /-- CRC_READ, R129. -/
  | crcRead
  /-- BT_RESET, R150. -/
  | btReset
  /-- BT_RAW, R151. -/
  | btRaw (pattern : Word32) (nbits : Nat)
  /-- BT_MFM, R152. -/
  | btMfm (b : Byte)
  /-- BT_FM, R153. -/
  | btFm (b : Byte)
  /-- BT_TO_TRACK, R180. -/
  | btToTrack (cellTime : Nat) (precomp : Nat)
  /-- BT_READ, R154. -/
  | btRead
  /-- TR_RESET, R210. -/
  | trReset
  /-- TR_EMIT_WRGATE, R211. -/
  | trEmitWrgate (gate : Gate)
  /-- TR_EMIT_FLUX, R212. -/
  | trEmitFlux (time : Int)
  /-- TR_EMIT_WAIT_INDEX, R213. -/
  | trEmitWaitIndex (n : Int)
  /-- TR_EMIT_STOP, R214. -/
  | trEmitStop
  /-- TR_GET_TIME, R215. -/
  | trGetTime
  /-- TR_GET_BUFFER, R216. -/
  | trGetBuffer
  /-- TR_GET_GATE, R217. -/
  | trGetGate
  /-- WAIT_TIMER, R241: field w = b[6:0], a wait of w + 2 clocks. -/
  | waitTimer (w : BitVec 7)
  /-- WAIT_INDEX, R242: field k = b[5:0]; k = 0 is the reserved byte 0x40 (R247). -/
  | waitIndex (k : BitVec 6)
  /-- STOP, R243. -/
  | stop
  /-- WAIT_HSTMD, R244. -/
  | waitHstmd
  /-- TRANSITION, R245. -/
  | transition
  /-- WR_GATE, R246: field g = b[0]. -/
  | wrGate (g : Gate)
deriving DecidableEq, Repr

/-- The operation codes of R92, one name per row. -/
inductive OpCode where
  | crcInit | crcCalc | crcUpdate | crcUpdateByte | crcReset | crcReseed | crcRead
  | btReset | btRaw | btMfm | btFm | btToTrack | btRead
  | trReset | trEmitWrgate | trEmitFlux | trEmitWaitIndex | trEmitStop | trGetTime | trGetBuffer | trGetGate
deriving DecidableEq, Repr

/-- One operand value as the host hands it over, before the interface has looked at it (R91, R94):
a number of any size, a sequence of numbers, or a gate. -/
inductive Operand where
  | num (v : Int)
  | seq (vs : List Int)
  | gate (g : Gate)
deriving DecidableEq, Repr

/-- An operation request (R91): the operation code and, beside it, the operand values in the order of
R92; trailing operands with a default may be omitted (R15). -/
structure Request where
  op : Byte
  operands : List Operand
deriving DecidableEq, Repr

/-- An instruction as it reaches an agent, in one of the two encodings of R90: a request to the block, or
a command byte to the writer. -/
inductive Code where
  | request (r : Request)
  | command (b : Byte)
deriving DecidableEq, Repr

end Sys2Proof
end

