-- ==== Sys2Proof/WellFormed.lean ====
section
/-! DEFINITION. Which terms of `Instr` are instructions. Operand types carry their own bounds (R12, R94),
and values that fit a type but break a precondition (nbits > 32, n < 1, time < 0) are well-formed requests that
answer an error status (R94, R300); so the one check is R97's: a wait-index count is 1 to 63. -/

namespace Sys2Proof

/-- The instruction has an encoding (R95 to R97): WAIT_INDEX with count 0 has none, its byte 0x40 is
reserved (R99). -/
def Instr.wellFormed : Instr → Bool
  | .waitIndex k => k != 0#6
  | .crcInit _ | .crcCalc _ | .crcUpdate _ | .crcUpdateByte _ | .crcReset | .crcReseed _ | .crcRead => true
  | .btReset | .btRaw _ _ | .btMfm _ | .btFm _ | .btToTrack _ _ | .btRead => true
  | .trReset | .trEmitWrgate _ | .trEmitFlux _ | .trEmitWaitIndex _ | .trEmitStop => true
  | .trGetTime | .trGetBuffer | .trGetGate => true
  | .waitTimer _ | .stop | .waitHstmd | .transition | .wrGate _ => true

end Sys2Proof
end

