-- ==== Sys2Proof/Decode.lean ====
section
/-! DEFINITION. Decoding both encodings of 30_encoding.md, total, rejecting by name (R91 to R102), and the
encoder after it. -/

namespace Sys2Proof

/-- Why a coded form is no instruction. -/
inductive DecodeError where
  /-- The operation code is not in the operation map (R93). -/
  | undefinedOp (op : Byte)
  /-- An operand does not fit its type, is missing and has no default, or is one too many (R94, R15). -/
  | operandRefused (op : Byte)
  /-- The byte is not a command (R99). -/
  | reservedCommand (b : Byte)
deriving DecidableEq, Repr

/-- The operation map of R92: code and operation. -/
def opMap : List (Byte × OpCode) :=
  [(0x10#8, .crcInit), (0x11#8, .crcCalc), (0x12#8, .crcUpdate), (0x13#8, .crcUpdateByte),
   (0x14#8, .crcReset), (0x15#8, .crcReseed), (0x16#8, .crcRead)] ++
  [(0x20#8, .btReset), (0x21#8, .btRaw), (0x22#8, .btMfm), (0x23#8, .btFm),
   (0x24#8, .btToTrack), (0x25#8, .btRead)] ++
  [(0x30#8, .trReset), (0x31#8, .trEmitWrgate), (0x32#8, .trEmitFlux), (0x33#8, .trEmitWaitIndex),
   (0x34#8, .trEmitStop), (0x35#8, .trGetTime), (0x36#8, .trGetBuffer), (0x37#8, .trGetGate)]

/-- The operation a code names, if any (R92, R93). -/
def opOf (op : Byte) : Option OpCode :=
  (opMap.find? (fun row => row.1 == op)).map (·.2)

/-- An operand of an unsigned type of `n` bits: any value that does not fit is refused, never truncated
(R94). -/
def readWord (n : Nat) : Int → Option (BitVec n)
  | .ofNat v => if v < 2 ^ n then some (BitVec.ofNat n v) else none
  | .negSucc _ => none

/-- An operand of type `Nat`: a negative value is refused (R94). -/
def readNat : Int → Option Nat
  | .ofNat v => some v
  | .negSucc _ => none

/-- An operand of type `Seq u8`: every element has to fit a byte (R94). -/
def readBytes : List Int → Option (List Byte)
  | [] => some []
  | v :: vs =>
    match readWord 8 v, readBytes vs with
    | some b, some bs => some (b :: bs)
    | _, _ => none

/-- The instruction that an operation with these operands is (R92), with the defaults of R15 for omitted
operands; `none` where the interface refuses the operands (R94). -/
def readOperands : OpCode → List Operand → Option Instr
  | .crcInit, [] => some (.crcInit Config.crcDefaultSeed)
  | .crcInit, [.num seed] => (readWord 16 seed).map .crcInit
  | .crcCalc, [.seq bytes] => (readBytes bytes).map .crcCalc
  | .crcUpdate, [.seq bytes] => (readBytes bytes).map .crcUpdate
  | .crcUpdateByte, [.num b] => (readWord 8 b).map .crcUpdateByte
  | .crcReset, [] => some .crcReset
  | .crcReseed, [.num seed] => (readWord 16 seed).map .crcReseed
  | .crcRead, [] => some .crcRead
  | .btReset, [] => some .btReset
  | .btRaw, [.num pattern] => (readWord 32 pattern).map (fun p => .btRaw p Config.rawDefaultBits)
  | .btRaw, [.num pattern, .num nbits] =>
    match readWord 32 pattern, readNat nbits with
    | some p, some n => some (.btRaw p n)
    | _, _ => none
  | .btMfm, [.num b] => (readWord 8 b).map .btMfm
  | .btFm, [.num b] => (readWord 8 b).map .btFm
  | .btToTrack, [.num cellTime] => (readNat cellTime).map (fun c => .btToTrack c Config.precompDefault)
  | .btToTrack, [.num cellTime, .num precomp] =>
    match readNat cellTime, readNat precomp with
    | some c, some p => some (.btToTrack c p)
    | _, _ => none
  | .btRead, [] => some .btRead
  | .trReset, [] => some .trReset
  | .trEmitWrgate, [.gate g] => some (.trEmitWrgate g)
  | .trEmitFlux, [.num time] => some (.trEmitFlux time)
  | .trEmitWaitIndex, [] => some (.trEmitWaitIndex Config.waitIndexDefault)
  | .trEmitWaitIndex, [.num n] => some (.trEmitWaitIndex n)
  | .trEmitStop, [] => some .trEmitStop
  | .trGetTime, [] => some .trGetTime
  | .trGetBuffer, [] => some .trGetBuffer
  | .trGetGate, [] => some .trGetGate
  | _, _ => none

/-- Decoding an operation request: first the code (R93, R307), then the operands (R94). -/
def decodeRequest (r : Request) : Except DecodeError Instr :=
  match opOf r.op with
  | none => .error (.undefinedOp r.op)
  | some op =>
    match readOperands op r.operands with
    | some i => .ok i
    | none => .error (.operandRefused r.op)

/-- `decode_cmd` of R100, its cases in R100's order. -/
def decodeCommand (b : Byte) : Except DecodeError Instr :=
  if b.getLsbD 7 then .ok (.waitTimer (b.extractLsb' 0 7))
  else if b.extractLsb' 6 2 == 0b01#2 then
    if b.extractLsb' 0 6 == 0#6 then .error (.reservedCommand b) else .ok (.waitIndex (b.extractLsb' 0 6))
  else if b == 0x3F#8 then .ok .stop
  else if b == 0x03#8 then .ok .waitHstmd
  else if b == 0x02#8 then .ok .transition
  else if b == 0x00#8 then .ok (.wrGate .read)
  else if b == 0x01#8 then .ok (.wrGate .write)
  else .error (.reservedCommand b)

/-- Decoding either encoding (R90). -/
def decode : Code → Except DecodeError Instr
  | .request r => decodeRequest r
  | .command b => decodeCommand b

/-- The gate's bit as a byte, READ = 0 and WRITE = 1 (R38, R98). -/
def gateByte : Gate → Byte
  | .read => 0x00#8
  | .write => 0x01#8

/-- A wait of `t` clocks, 2 to 129, as a command byte: `0x80 | (t - 2)` (R96). -/
def waitTimerByte (t : Nat) : Byte := 0x80#8 ||| BitVec.ofNat 8 (t - 2)

/-- A wait for `k` index pulses, 1 to 63, as a command byte: `0x40 | k` (R97). -/
def waitIndexByte (k : Nat) : Byte := 0x40#8 ||| BitVec.ofNat 8 k

/-- CMD_STOP (R95). -/
def stopByte : Byte := 0x3F#8

/-- CMD_TRANSITION (R95). -/
def transitionByte : Byte := 0x02#8

/-- CMD_WAIT_HSTMD (R95). -/
def waitHstmdByte : Byte := 0x03#8

/-- An operand as the number the host hands over. -/
def numOperand {n : Nat} (v : BitVec n) : Operand := .num (v.toNat : Int)

/-- A byte sequence as the host hands it over. -/
def seqOperand (bytes : List Byte) : Operand := .seq (bytes.map (fun b => (b.toNat : Int)))

/-- The coded form of an instruction: the request with every operand written out (R91, R92), or the
command byte (R95 to R98). -/
def encode : Instr → Code
  | .crcInit seed => .request ⟨0x10#8, [numOperand seed]⟩
  | .crcCalc bytes => .request ⟨0x11#8, [seqOperand bytes]⟩
  | .crcUpdate bytes => .request ⟨0x12#8, [seqOperand bytes]⟩
  | .crcUpdateByte b => .request ⟨0x13#8, [numOperand b]⟩
  | .crcReset => .request ⟨0x14#8, []⟩
  | .crcReseed seed => .request ⟨0x15#8, [numOperand seed]⟩
  | .crcRead => .request ⟨0x16#8, []⟩
  | .btReset => .request ⟨0x20#8, []⟩
  | .btRaw pattern nbits => .request ⟨0x21#8, [numOperand pattern, .num nbits]⟩
  | .btMfm b => .request ⟨0x22#8, [numOperand b]⟩
  | .btFm b => .request ⟨0x23#8, [numOperand b]⟩
  | .btToTrack cellTime precomp => .request ⟨0x24#8, [.num cellTime, .num precomp]⟩
  | .btRead => .request ⟨0x25#8, []⟩
  | .trReset => .request ⟨0x30#8, []⟩
  | .trEmitWrgate g => .request ⟨0x31#8, [.gate g]⟩
  | .trEmitFlux time => .request ⟨0x32#8, [.num time]⟩
  | .trEmitWaitIndex n => .request ⟨0x33#8, [.num n]⟩
  | .trEmitStop => .request ⟨0x34#8, []⟩
  | .trGetTime => .request ⟨0x35#8, []⟩
  | .trGetBuffer => .request ⟨0x36#8, []⟩
  | .trGetGate => .request ⟨0x37#8, []⟩
  | .waitTimer w => .command (0x80#8 ||| w.setWidth 8)
  | .waitIndex k => .command (0x40#8 ||| k.setWidth 8)
  | .stop => .command stopByte
  | .waitHstmd => .command waitHstmdByte
  | .transition => .command transitionByte
  | .wrGate g => .command (gateByte g)

/-- The operands a bare operation code stands for in the opcode table, which gives operands no bits:
omitted where the source has a default (R15), else zero, empty or READ. DESIGN CHOICE, log 2. -/
def bareOperands : OpCode → List Operand
  | .crcInit => []
  | .crcCalc => [.seq []]
  | .crcUpdate => [.seq []]
  | .crcUpdateByte => [.num 0]
  | .crcReset => []
  | .crcReseed => [.num 0]
  | .crcRead => []
  | .btReset => []
  | .btRaw => [.num 0]
  | .btMfm => [.num 0]
  | .btFm => [.num 0]
  | .btToTrack => [.num 0]
  | .btRead => []
  | .trReset => []
  | .trEmitWrgate => [.gate .read]
  | .trEmitFlux => [.num 0]
  | .trEmitWaitIndex => []
  | .trEmitStop => []
  | .trGetTime => []
  | .trGetBuffer => []
  | .trGetGate => []

/-- The coded form a byte of the opcode table stands for: a request where it is an operation code (R92),
else a command byte (R95). No byte is both (R92, R99; DEDUCED, log 1). -/
def tableCode (b : Byte) : Code :=
  match opOf b with
  | some op => .request ⟨b, bareOperands op⟩
  | none => .command b

/-- The instruction the decoder reads from a word of the opcode table. Both encodings are one byte long
(R91, R101): a word with a bit set above bit 7 is no instruction. -/
def decodeTableWord (nbits w : Nat) : Option Instr :=
  if nbits == 8 && decide (w < 256) then (decode (tableCode (BitVec.ofNat 8 w))).toOption else none

end Sys2Proof
end

