-- ==== Sys2Proof/Machine/Operands.lean ====
section
/-! DEFINITION. How operand values are taken apart: bit orders (20_memory.md R64, R66), the lowering's
half cell (00_scope.md R13). -/

namespace Sys2Proof.Machine

/-- Bits `n-1` down to 0 of a value, the highest first (R11, R64). -/
def bitsDown {w : Nat} (v : BitVec w) : Nat → List Bit
  | 0 => []
  | n + 1 => v.getLsbD n :: bitsDown v n

/-- The eight data bits of a byte in the order BT_MFM and BT_FM take them: bit 7 first (R64). -/
def byteBits (b : Byte) : List Bit := bitsDown b 8

/-- The high byte of a CRC, `c[15:8]` (R66, R132). -/
def crcHigh (c : Word16) : Byte := c.extractLsb' 8 8

/-- The low byte of a CRC, `c[7:0]` (R66, R132). -/
def crcLow (c : Word16) : Byte := c.extractLsb' 0 8

/-- `cell_time / 2`, rounded toward zero: the clocks of one cell (R13, R180, R192). -/
def halfCell (cellTime : Nat) : Nat := cellTime / 2

end Sys2Proof.Machine
end

