-- ==== Sys2Proof/Machine/State.lean ====
section
/-! DEFINITION. The machine's state as plain data: the block's record of 10_state.md R30, the writer's
interpreter state of 44_commands.md R240, the response of the latest request (R91), what the outside still has to
give (log 3, log 4), and the parameter TRACK_CAP (R8). -/

namespace Sys2Proof.Machine

/-- An error of a block operation with the value its response carries (60_exceptions.md R300 to R306). -/
inductive OpError where
  /-- INVALID_RAW_WIDTH, R302: the offending nbits. -/
  | invalidRawWidth (nbits : Nat)
  /-- INVALID_WAIT_INDEX, R303: the offending n. -/
  | invalidWaitIndex (n : Int)
  /-- TRACK_TOO_LONG, R306: the buffer's length. -/
  | trackTooLong (len : Nat)
  /-- INVALID_FLUX_TIME, R304: the first negative wait. -/
  | invalidFluxTime (time : Int)
  /-- INVALID_OPERATION, R305: the undefined code. -/
  | invalidOperation (op : Byte)
deriving DecidableEq, Repr

/-- The result column of R92; `none` for an operation without a result. -/
inductive Result where
  | none
  | crc (v : Word16)
  | time (v : Word32)
  | buffer (bytes : List Byte)
  | cells (cells : List Bit) (lastDataBit : Bit)
  | gate (g : Gate)
deriving DecidableEq, Repr

/-- A response (R91): status OK with a result, or the status and value of an error (R301). -/
inductive Response where
  | ok (result : Result)
  | error (e : OpError)
deriving DecidableEq, Repr

/-- The CRC unit (R31, R32). -/
structure Crc where
  initial : Word16
  current : Word16
deriving DecidableEq, Repr

/-- The BitTrack unit (R35, R36). -/
structure BitTrack where
  cells : List Bit
  lastDataBit : Bit
deriving DecidableEq, Repr

/-- The Track unit (R37 to R39). -/
structure Track where
  buffer : List Byte
  gate : Gate
  timestep : Word32
deriving DecidableEq, Repr

/-- The writer's reference interpreter (R240), with the buffer it was handed (R76): `none` until the
first hand-off. -/
structure Writer where
  program : Option (List Byte)
  ip : Nat
  gate : Gate
  time : Nat
  events : List (Nat × Gate)
deriving DecidableEq, Repr

/-- What the outside can do to the machine (R5, R76, R330; log 4). -/
inductive Input where
  /-- The host issues an operation request (R91). -/
  | request (r : Request)
  /-- The host requests a block reset (R330). -/
  | reset
  /-- The host hands the writer a buffer (R76). -/
  | handOff (program : List Byte)
  /-- The writer takes the next step of its interpreter (R240). -/
  | writerStep
deriving DecidableEq, Repr

/-- The whole state. `crc`, `bt`, `tr` are R30's record and `writer` is R240's; the other fields are the
model's own (INVENTORY.md, State). -/
structure State where
  crc : Crc
  bt : BitTrack
  tr : Track
  writer : Writer
  /-- The response of the latest operation request, `none` before the first (R91; log 5). -/
  response : Option Response
  /-- What the outside gives next, in order (log 3, log 4). -/
  inputs : List Input
  /-- The parameter TRACK_CAP (R8, D12); nothing writes it (log 7). -/
  trackCap : Nat
  /-- How many wait durations have been drawn (log 8). -/
  draws : Nat
deriving DecidableEq, Repr

/-- Why the machine stops with a fault: the two faults of the writer's interpreter. -/
inductive Fault where
  /-- RESERVED_COMMAND(b), R247: raised by the writer at a byte that is no command. Safe: the interpreter does
  not advance (log 12). -/
  | reservedCommand (b : Byte)
  /-- RAN_OFF_END, R249: raised by the writer when its buffer ends without a STOP. Safe (log 12). -/
  | ranOffEnd
deriving DecidableEq, Repr

/-- Why an instruction is refused. -/
inductive Refusal where
  /-- An instruction without a meaning in this model; raised by `exec` only. Safe. -/
  | notModelled (mnemonic : String)
  /-- The interface refuses a request whose operands do not fit their types (R94, D4); raised by `step` before
  the block sees the request. Safe (log 11). -/
  | operandRefused (op : Byte)
deriving DecidableEq, Repr

/-- The CRC unit after a block reset (R47). -/
def Crc.reset : Crc := ⟨Config.crcDefaultSeed, Config.crcDefaultSeed⟩

/-- The BitTrack after a block reset (R47). -/
def BitTrack.reset : BitTrack := ⟨[], false⟩

/-- The Track after a block reset (R47). -/
def Track.reset : Track := ⟨[], .read, 0#32⟩

/-- The interpreter as it starts on a buffer (R240). -/
def Writer.start (program : Option (List Byte)) : Writer := ⟨program, 0, .read, 0, []⟩

/-- The machine right after reset: R47 for the block; the writer has been handed nothing (log 9), no
request has been made (log 5), nothing is pending (R332; log 3), TRACK_CAP is 512 KiB (R8) and nothing has been drawn
(log 8). -/
def State.reset : State :=
  { crc := Crc.reset, bt := BitTrack.reset, tr := Track.reset, writer := Writer.start none,
    response := none, inputs := [], trackCap := Config.trackCapDefault, draws := 0 }

/-- Replace the CRC unit. -/
def State.withCrc (s : State) (c : Crc) : State := { s with crc := c }

/-- Replace the BitTrack. -/
def State.withBt (s : State) (b : BitTrack) : State := { s with bt := b }

/-- Replace the Track. -/
def State.withTr (s : State) (t : Track) : State := { s with tr := t }

/-- Replace the writer. -/
def State.withWriter (s : State) (w : Writer) : State := { s with writer := w }

/-- Replace the response. -/
def State.withResponse (s : State) (r : Response) : State := { s with response := some r }

/-- Replace the pending inputs. -/
def State.withInputs (s : State) (is : List Input) : State := { s with inputs := is }

/-- Count one more drawn duration. -/
def State.countDraw (s : State) : State := { s with draws := s.draws + 1 }

end Sys2Proof.Machine
end

