-- ==== Sys2Proof/Machine/Ops.lean ====
section
/-! DEFINITION. The operations the meanings share: answering a request, raising an error, appending to the
two sequences, moving the writer on. -/

namespace Sys2Proof.Machine

/-- End an operation with status OK (R14, `return v`). -/
def finish (result : Result) (s : State) : Host.Outcome State Fault Refusal :=
  .next (s.withResponse (.ok result))

/-- End an operation with an error (R14, `raise`): no state is written, the response carries the error, and
the next operation is accepted as usual (R301). The block has no other way to take an exception and
nothing to return from (R310, R311). -/
def raise (e : OpError) (s : State) : Host.Outcome State Fault Refusal :=
  .next (s.withResponse (.error e))

/-- Answer a coded form that is no instruction: an undefined operation code is an error response (R93,
R305), operands that do not fit are refused at the interface (R94; log 11), a reserved byte is the writer's
fault (R247; log 12). -/
def reject (e : DecodeError) (s : State) : Host.Outcome State Fault Refusal :=
  match e with
  | .undefinedOp op => raise (.invalidOperation op) s
  | .operandRefused op => .refused (.operandRefused op)
  | .reservedCommand b => .fault (.reservedCommand b)

/-- Append cells at the end of the stream (R61, R63). -/
def BitTrack.append (cells : List Bit) (lastDataBit : Bit) (bt : BitTrack) : BitTrack :=
  ⟨bt.cells ++ cells, lastDataBit⟩

/-- Append command bytes that account for `clocks` reference clocks: the buffer only grows at its end
(R62, R63) and the timestep wraps (R39). -/
def Track.emit (bytes : List Byte) (clocks : Nat) (tr : Track) : Track :=
  { tr with buffer := tr.buffer ++ bytes, timestep := tr.timestep + BitVec.ofNat 32 clocks }

/-- A command of the writer that takes `clocks` clocks and is not STOP: the accounted time grows and the
command index moves on by one (R240). -/
def Writer.advance (clocks : Nat) (w : Writer) : Writer :=
  { w with ip := w.ip + 1, time := w.time + clocks }

/-- The block reset event (R330): every field of R47 at its reset value. The writer, the response and
what is pending are not the block's and stay (log 6). -/
def resetBlock (s : State) : State :=
  ((s.withCrc Crc.reset).withBt BitTrack.reset).withTr Track.reset

/-- The host hands the writer a buffer: the interpreter starts on that copy (R76, R240; log 10). -/
def handOff (program : List Byte) (s : State) : State :=
  s.withWriter (Writer.start (some program))

end Sys2Proof.Machine
end

