-- ==== Sys2Proof/Machine/BitTrack.lean ====
section
/-! DEFINITION. The BitTrack encoder (41_bittrack.md), but for the lowering. -/

namespace Sys2Proof.Machine

/-- One data bit under MFM (R152): the clock is 1 only between two 0 data bits, then the data cell. -/
def mfmBit (bt : BitTrack) (d : Bit) : BitTrack := bt.append [!(bt.lastDataBit || d), d] d

/-- One data bit under FM (R153): clock 1, then the data cell (90_conflicts.md C13). -/
def fmBit (bt : BitTrack) (d : Bit) : BitTrack := bt.append [true, d] d

/-- Eight data bits under MFM, bit 7 first (R152, R64). -/
def mfmByte (b : Byte) (bt : BitTrack) : BitTrack := (byteBits b).foldl mfmBit bt

/-- Eight data bits under FM, bit 7 first (R153, R64). -/
def fmByte (b : Byte) (bt : BitTrack) : BitTrack := (byteBits b).foldl fmBit bt

/-- The `nbits`-wide field of a raw pattern, top bit first, verbatim (R151; C3); the last data bit is
`pattern[0]` for every width (D14, D27). -/
def rawPattern (pattern : Word32) (nbits : Nat) (bt : BitTrack) : BitTrack :=
  bt.append (bitsDown pattern nbits) (pattern.getLsbD 0)

/-- BT_RESET (R150). -/
def execBtReset (s : State) : Host.Outcome State Fault Refusal :=
  finish .none (s.withBt BitTrack.reset)

/-- BT_RAW (R151): more than 32 bits is INVALID_RAW_WIDTH (R302). -/
def execBtRaw (pattern : Word32) (nbits : Nat) (s : State) : Host.Outcome State Fault Refusal :=
  if Config.rawMaxBits < nbits then raise (.invalidRawWidth nbits) s
  else finish .none (s.withBt (rawPattern pattern nbits s.bt))

/-- BT_MFM (R152). -/
def execBtMfm (b : Byte) (s : State) : Host.Outcome State Fault Refusal :=
  finish .none (s.withBt (mfmByte b s.bt))

/-- BT_FM (R153). -/
def execBtFm (b : Byte) (s : State) : Host.Outcome State Fault Refusal :=
  finish .none (s.withBt (fmByte b s.bt))

/-- BT_READ (R154): reads, writes nothing. -/
def execBtRead (s : State) : Host.Outcome State Fault Refusal :=
  finish (.cells s.bt.cells s.bt.lastDataBit) s

end Sys2Proof.Machine
end

