-- ==== Sys2Proof/Machine/Crc.lean ====
section
/-! DEFINITION. The CRC unit (40_crc.md). -/

namespace Sys2Proof.Machine

/-- One of the eight shifts of R120: left by one, and the polynomial where bit 15 was 1. -/
def crcShift (c : Word16) : Word16 :=
  if c.getLsbD 15 then (c <<< 1) ^^^ Config.crcPoly else c <<< 1

/-- `n` shifts (R120). -/
def crcShifts : Nat → Word16 → Word16
  | 0, c => c
  | n + 1, c => crcShifts n (crcShift c)

/-- `crc_byte` (R120): the byte enters the high half, bit 7 first (R65), then eight shifts. R120's procedure
is marked in the spec as general knowledge checked by R131 and R34 (log 13). -/
def crcByte (c : Word16) (b : Byte) : Word16 := crcShifts 8 (c ^^^ (b.setWidth 16 <<< 8))

/-- `crc_seq` (R121): no final XOR, no reflection. -/
def crcSeq : Word16 → List Byte → Word16
  | c, [] => c
  | c, b :: rest => crcSeq (crcByte c b) rest

/-- The byte step in table form (R122). -/
def crcByteByTable (c : Word16) (b : Byte) : Word16 := (c <<< 8) ^^^ crcTableAt (c.extractLsb' 8 8 ^^^ b)

/-- Set seed and remainder (R123, R128). -/
def reseed (seed : Word16) (s : State) : State := s.withCrc ⟨seed, seed⟩

/-- Set the remainder, keep the seed. -/
def setCurrent (c : Word16) (s : State) : State := s.withCrc ⟨s.crc.initial, c⟩

/-- CRC_INIT (R123). -/
def execCrcInit (seed : Word16) (s : State) : Host.Outcome State Fault Refusal :=
  finish .none (reseed seed s)

/-- CRC_CALC (R124): the remainder from `current`, nothing written. -/
def execCrcCalc (bytes : List Byte) (s : State) : Host.Outcome State Fault Refusal :=
  finish (.crc (crcSeq s.crc.current bytes)) s

/-- CRC_UPDATE (R125). -/
def execCrcUpdate (bytes : List Byte) (s : State) : Host.Outcome State Fault Refusal :=
  let c := crcSeq s.crc.current bytes
  finish (.crc c) (setCurrent c s)

/-- CRC_UPDATE_BYTE (R126): the result is the new `current` (D18). -/
def execCrcUpdateByte (b : Byte) (s : State) : Host.Outcome State Fault Refusal :=
  let c := crcByte s.crc.current b
  finish (.crc c) (setCurrent c s)

/-- CRC_RESET (R127). -/
def execCrcReset (s : State) : Host.Outcome State Fault Refusal :=
  finish .none (setCurrent s.crc.initial s)

/-- CRC_RESEED (R128). -/
def execCrcReseed (seed : Word16) (s : State) : Host.Outcome State Fault Refusal :=
  finish .none (reseed seed s)

/-- CRC_READ (R129). -/
def execCrcRead (s : State) : Host.Outcome State Fault Refusal :=
  finish (.crc s.crc.current) s

end Sys2Proof.Machine
end

