-- ==== Sys2Proof/Machine/Flags.lean ====
section
/-! DEFINITION. The flag-like values of the block (10_state.md R44): it has no condition codes; the one
derived status is `TR.too_long` (R41), and each response carries a status code (60_exceptions.md R300). -/

namespace Sys2Proof.Machine

/-- `TR.too_long` (R41), for a given TRACK_CAP. -/
def tooLong (cap : Nat) (buffer : List Byte) : Bool := decide (cap < buffer.length)

/-- The status code of an error (R300). -/
def OpError.status : OpError → Byte
  | .invalidRawWidth _ => 1#8
  | .invalidWaitIndex _ => 2#8
  | .trackTooLong _ => 3#8
  | .invalidFluxTime _ => 4#8
  | .invalidOperation _ => 5#8

/-- The status code a response carries (R300): 0 is OK. -/
def Response.status : Response → Byte
  | .ok _ => 0#8
  | .error e => e.status

end Sys2Proof.Machine
end

