-- ==== Sys2Proof/Machine/Track.lean ====
section
/-! DEFINITION. The Track serializer (43_track.md). -/

namespace Sys2Proof.Machine

/-- The wait loop of TR_EMIT_FLUX (R212): 129 clocks a byte while more than 129 remain, then one wait-timer
byte, or the current gate's byte as the pad of one clock. The first argument is fuel; `t` is enough. -/
def waitBytes (gate : Gate) : Nat → Nat → List Byte
  | 0, _ => []
  | fuel + 1, t =>
    if t > Config.timerWaitMax then
      waitTimerByte Config.timerWaitMax :: waitBytes gate fuel (t - Config.timerWaitMax)
    else if t ≥ 2 then [waitTimerByte t]
    else if t = 1 then [gateByte gate]
    else []

/-- The bytes of one flux (R212): the waits, then TRANSITION. -/
def fluxBytes (gate : Gate) (time : Nat) : List Byte := waitBytes gate time time ++ [transitionByte]

/-- One flux on a Track (R212): `time + 1` clocks, the gate is read and kept. -/
def emitFlux (time : Nat) (tr : Track) : Track := tr.emit (fluxBytes tr.gate time) (time + 1)

/-- The loop of TR_EMIT_WAIT_INDEX (R213, D9): 63 pulses a byte, then the remainder. The first argument is
fuel; `n` is enough. -/
def waitIndexBytes : Nat → Nat → List Byte
  | 0, _ => []
  | fuel + 1, n =>
    if n = 0 then []
    else waitIndexByte (min n Config.indexWaitMax) :: waitIndexBytes fuel (n - min n Config.indexWaitMax)

/-- TR_RESET (R210): emits nothing. -/
def execTrReset (s : State) : Host.Outcome State Fault Refusal :=
  finish .none (s.withTr Track.reset)

/-- TR_EMIT_WRGATE (R211). -/
def execTrEmitWrgate (gate : Gate) (s : State) : Host.Outcome State Fault Refusal :=
  let tr := s.tr.emit [gateByte gate] 1
  finish .none (s.withTr ⟨tr.buffer, gate, tr.timestep⟩)

/-- TR_EMIT_FLUX (R212): a negative time is INVALID_FLUX_TIME (R304). -/
def execTrEmitFlux (time : Int) (s : State) : Host.Outcome State Fault Refusal :=
  if time < 0 then raise (.invalidFluxTime time) s
  else finish .none (s.withTr (emitFlux time.toNat s.tr))

/-- TR_EMIT_WAIT_INDEX (R213): fewer than one pulse is INVALID_WAIT_INDEX (R303); no clocks are accounted. -/
def execTrEmitWaitIndex (n : Int) (s : State) : Host.Outcome State Fault Refusal :=
  if n < 1 then raise (.invalidWaitIndex n) s
  else finish .none (s.withTr (s.tr.emit (waitIndexBytes n.toNat n.toNat) 0))

/-- TR_EMIT_STOP (R214): no clocks are accounted (D10). -/
def execTrEmitStop (s : State) : Host.Outcome State Fault Refusal :=
  finish .none (s.withTr (s.tr.emit [stopByte] 0))

/-- TR_GET_TIME (R215). -/
def execTrGetTime (s : State) : Host.Outcome State Fault Refusal :=
  finish (.time s.tr.timestep) s

/-- TR_GET_BUFFER (R216): TRACK_TOO_LONG over the cap (R306); the buffer stays whole. -/
def execTrGetBuffer (s : State) : Host.Outcome State Fault Refusal :=
  if tooLong s.trackCap s.tr.buffer then raise (.trackTooLong s.tr.buffer.length) s
  else finish (.buffer s.tr.buffer) s

/-- TR_GET_GATE (R217). -/
def execTrGetGate (s : State) : Host.Outcome State Fault Refusal :=
  finish (.gate s.tr.gate) s

end Sys2Proof.Machine
end

