-- ==== Sys2Proof/Machine/Lowering.lean ====
section
/-! DEFINITION. The bit-to-flux lowering with write precompensation (42_lowering.md). -/

namespace Sys2Proof.Machine

/-- The working registers of BT_TO_TRACK (R42), and the waits found so far (R180). They exist only inside
the operation. -/
structure LowerRegs where
  pos : Nat
  shiftreg : BitVec 8
  nzeroes : Nat
  waits : List Int
deriving DecidableEq, Repr

/-- Their values as the operation starts (R42). -/
def lowerStart : LowerRegs := ⟨0, 0#8, 0, []⟩

/-- `mul` of a window (R180, R182; C4): +1 for 00101, -1 for 10100. -/
def precompMul (w : BitVec 5) : Int :=
  if w == 0b00101#5 then 1 else if w == 0b10100#5 then -1 else 0

/-- One iteration of R180: shift the cell in, and past the two warm-up positions judge the cell in bit 2. -/
def lowerCell (half precomp : Nat) (r : LowerRegs) (cell : Bit) : LowerRegs :=
  let shiftreg := (r.shiftreg <<< 1) ||| (BitVec.ofBool cell).setWidth 8
  if r.pos < 2 then ⟨r.pos + 1, shiftreg, r.nzeroes, r.waits⟩
  else if shiftreg.getLsbD 2 then
    let wait : Int := half + r.nzeroes * half + precompMul (shiftreg.extractLsb' 0 5) * precomp
    ⟨r.pos + 1, shiftreg, 0, r.waits ++ [wait]⟩
  else ⟨r.pos + 1, shiftreg, r.nzeroes + 1, r.waits⟩

/-- The first pass of R180: the waits of all transitions, in cell order, over the cells and two zero pads.
No arithmetic wraps (D24). -/
def lowerWaits (cellTime precomp : Nat) (cells : List Bit) : List Int :=
  ((cells ++ [false, false]).foldl (lowerCell (halfCell cellTime) precomp) lowerStart).waits

/-- The second pass of R180: one flux per wait, in order. -/
def emitWaits (waits : List Int) (tr : Track) : Track :=
  waits.foldl (fun t wait => emitFlux wait.toNat t) tr

/-- BT_TO_TRACK (R180): the first negative wait is INVALID_FLUX_TIME and nothing is emitted (R183, D8);
else every wait is emitted into the block's Track. The cells stay (R189). -/
def execBtToTrack (cellTime precomp : Nat) (s : State) : Host.Outcome State Fault Refusal :=
  match (lowerWaits cellTime precomp s.bt.cells).find? (fun t => decide (t < 0)) with
  | some t => raise (.invalidFluxTime t) s
  | none => finish .none (s.withTr (emitWaits (lowerWaits cellTime precomp s.bt.cells) s.tr))

end Sys2Proof.Machine
end

