-- ==== Sys2Proof/Machine/Writer.lean ====
section
/-! DEFINITION. The commands of the writer's reference interpreter (44_commands.md R240 to R247). Each meaning
performs its command and, but for STOP, moves `ip` on. -/

namespace Sys2Proof.Machine

/-- WAIT_TIMER (R241): `w + 2` clocks. -/
def execWaitTimer (w : BitVec 7) (s : State) : Host.Outcome State Fault Refusal :=
  .next (s.withWriter (s.writer.advance (w.toNat + 2)))

/-- WAIT_INDEX (R242): the wait's clocks are a draw, a free value (log 8). Count 0 is the reserved byte 0x40,
which faults and does not advance (R247). -/
def execWaitIndex (k : BitVec 6) (s : State) : Host.Outcome State Fault Refusal :=
  if k == 0#6 then .fault (.reservedCommand 0x40#8)
  else .next ((s.withWriter (s.writer.advance (Config.indexWaitDuration s.draws))).countDraw)

/-- STOP (R243): the interpreter halts, `ip` stays at the STOP, so a further step changes nothing (log 14). -/
def execStop (s : State) : Host.Outcome State Fault Refusal := .next s

/-- WAIT_HSTMD (R244): the wait's clocks are a draw, a free value (log 8); a wait that never ends is a writer
that is never given its next step (log 4). -/
def execWaitHstmd (s : State) : Host.Outcome State Fault Refusal :=
  .next ((s.withWriter (s.writer.advance (Config.hstmdWaitDuration s.draws))).countDraw)

/-- TRANSITION (R245): recorded at the clock where it starts, with the gate as it is; one clock. -/
def execTransition (s : State) : Host.Outcome State Fault Refusal :=
  let w := s.writer
  .next (s.withWriter (Writer.advance 1 { w with events := w.events ++ [(w.time, w.gate)] }))

/-- WR_GATE (R246): sets the gate; one clock. -/
def execWrGate (g : Gate) (s : State) : Host.Outcome State Fault Refusal :=
  let w := s.writer
  .next (s.withWriter (Writer.advance 1 { w with gate := g }))

end Sys2Proof.Machine
end

