-- ==== Sys2Proof/Machine/Dispatch.lean ====
section
/-! DEFINITION. One arm per instruction, each a direct call of its meaning. -/

namespace Sys2Proof.Machine

def exec (i : Instr) (s : State) : Host.Outcome State Fault Refusal :=
  match i with
  | .crcInit seed => Sys2Proof.Machine.execCrcInit seed s
  | .crcCalc bytes => Sys2Proof.Machine.execCrcCalc bytes s
  | .crcUpdate bytes => Sys2Proof.Machine.execCrcUpdate bytes s
  | .crcUpdateByte b => Sys2Proof.Machine.execCrcUpdateByte b s
  | .crcReset => Sys2Proof.Machine.execCrcReset s
  | .crcReseed seed => Sys2Proof.Machine.execCrcReseed seed s
  | .crcRead => Sys2Proof.Machine.execCrcRead s
  | .btReset => Sys2Proof.Machine.execBtReset s
  | .btRaw pattern nbits => Sys2Proof.Machine.execBtRaw pattern nbits s
  | .btMfm b => Sys2Proof.Machine.execBtMfm b s
  | .btFm b => Sys2Proof.Machine.execBtFm b s
  | .btToTrack cellTime precomp => Sys2Proof.Machine.execBtToTrack cellTime precomp s
  | .btRead => Sys2Proof.Machine.execBtRead s
  | .trReset => Sys2Proof.Machine.execTrReset s
  | .trEmitWrgate gate => Sys2Proof.Machine.execTrEmitWrgate gate s
  | .trEmitFlux time => Sys2Proof.Machine.execTrEmitFlux time s
  | .trEmitWaitIndex n => Sys2Proof.Machine.execTrEmitWaitIndex n s
  | .trEmitStop => Sys2Proof.Machine.execTrEmitStop s
  | .trGetTime => Sys2Proof.Machine.execTrGetTime s
  | .trGetBuffer => Sys2Proof.Machine.execTrGetBuffer s
  | .trGetGate => Sys2Proof.Machine.execTrGetGate s
  | .waitTimer w => Sys2Proof.Machine.execWaitTimer w s
  | .waitIndex k => Sys2Proof.Machine.execWaitIndex k s
  | .stop => Sys2Proof.Machine.execStop s
  | .waitHstmd => Sys2Proof.Machine.execWaitHstmd s
  | .transition => Sys2Proof.Machine.execTransition s
  | .wrGate g => Sys2Proof.Machine.execWrGate g s

end Sys2Proof.Machine
end

