-- ==== Sys2Proof/Machine/Fetch.lean ====
section
/-! DEFINITION. What happens next, read from the state: the head of the inputs says which agent moves and
on what (R5, R240, R332; log 4). -/

namespace Sys2Proof.Machine

/-- What the next step has to do. -/
inductive Fetched where
  /-- Nothing: the block waits for the host (R332), or the writer has been handed nothing (log 9). -/
  | idle
  /-- An instruction to decode and run. -/
  | code (c : Code)
  /-- A block reset (R330). -/
  | reset
  /-- A hand-off to the writer (R76). -/
  | handOff (program : List Byte)
  /-- The writer's buffer has no byte at `ip` (R240, R249). -/
  | ranOffEnd
deriving DecidableEq, Repr

/-- The writer's next byte, `P[ip]` (R240). -/
def fetchCommand (w : Writer) : Fetched :=
  match w.program with
  | none => .idle
  | some program =>
    match program[w.ip]? with
    | some b => .code (.command b)
    | none => .ranOffEnd

/-- What the next step has to do. -/
def fetch (s : State) : Fetched :=
  match s.inputs with
  | [] => .idle
  | .request r :: _ => .code (.request r)
  | .reset :: _ => .reset
  | .handOff program :: _ => .handOff program
  | .writerStep :: _ => fetchCommand s.writer

/-- The state with the input the step consumes taken off. -/
def takeInput (s : State) : State := s.withInputs s.inputs.tail

/-- The buffer with byte `b` at index `ip`, the bytes before and after it as they are; zeros fill a gap. -/
def placeByte (program : List Byte) (ip : Nat) (b : Byte) : List Byte :=
  program.take ip ++ (List.replicate (ip - program.length) 0#8 ++ b :: program.drop (ip + 1))

/-- Place a coded form where the next step fetches it: a request as the host's next input, a command
byte as the writer's next byte with the writer to move (log 3). -/
def placeCode (c : Code) (s : State) : State :=
  match c with
  | .request r => s.withInputs (.request r :: s.inputs)
  | .command b =>
    (s.withWriter
      { s.writer with program := some (placeByte (s.writer.program.getD []) s.writer.ip b) }).withInputs
      (.writerStep :: s.inputs)

end Sys2Proof.Machine
end

