-- ==== Sys2Proof/Machine/Step.lean ====
section
/-! DEFINITION. One step of the machine: take the next input, and do what it asks. -/

namespace Sys2Proof.Machine

/-- One step (R6, R240): one operation of the block, one command of the writer, one event of the host, or
nothing where nothing is asked. -/
def step (s : State) : Host.Outcome State Fault Refusal :=
  match fetch s with
  | .idle => .next (takeInput s)
  | .code c =>
    match decode c with
    | .ok i => exec i (takeInput s)
    | .error e => reject e (takeInput s)
  | .reset => .next (resetBlock (takeInput s))
  | .handOff program => .next (handOff program (takeInput s))
  | .ranOffEnd => .fault .ranOffEnd

/-- The state with the opcode table's word `w` placed where `step` fetches next (log 2, log 3). Both encodings
are one byte long, so there is nothing above bit 7 to place. -/
def State.withFetchWord (s : State) (_nbits w : Nat) : State :=
  placeCode (tableCode (BitVec.ofNat 8 w)) s

end Sys2Proof.Machine
end

