-- ==== Sys2Proof/Safety.lean ====
section
/-! DEFINITION. The terms in which claims speak of the machine: which bytes the block may emit, what a command
costs, which programs are well formed, what stays true of the state, and the cell-by-cell view of the lowering. -/

namespace Sys2Proof.Machine

/-- The alphabet of emitted bytes (R102, R221): 00, 01, 02, 3F, 41 to 7F, 80 to FF. -/
def emittable (b : Byte) : Bool :=
  b.toNat ≤ 2 || b.toNat == 0x3F || decide (0x41 ≤ b.toNat)

/-- The accounted clocks of one command byte (R241 to R246, R348): draws are not accounted, and a byte that
is no command has no cost. -/
def byteClocks (b : Byte) : Nat :=
  match decodeCommand b with
  | .ok (.waitTimer w) => w.toNat + 2
  | .ok .transition => 1
  | .ok (.wrGate _) => 1
  | _ => 0

/-- The accounted clocks of a command buffer. -/
def accountedClocks : List Byte → Nat
  | [] => 0
  | b :: rest => byteClocks b + accountedClocks rest

/-- The clocks the WAIT_INDEX bytes of a buffer take in fact, each a draw, from draw number `n` on (R242). -/
def drawnIndexClocks (n : Nat) : List Byte → Nat
  | [] => 0
  | b :: rest =>
    match decodeCommand b with
    | .ok (.waitIndex _) => Config.indexWaitDuration n + drawnIndexClocks (n + 1) rest
    | _ => drawnIndexClocks n rest

/-- How many bytes of a buffer are WAIT_INDEX commands. -/
def indexWaits (bytes : List Byte) : Nat :=
  bytes.countP (fun b => match decodeCommand b with | .ok (.waitIndex _) => true | _ => false)

/-- A well-formed program (R249): every byte before its first STOP is a command, and it has a STOP. -/
def wellFormedProgram : List Byte → Bool
  | [] => false
  | b :: rest =>
    b == stopByte || ((match decodeCommand b with | .ok _ => true | .error _ => false) && wellFormedProgram rest)

/-- Every byte of the Track's buffer is in the emitted alphabet (R221). -/
def bufferEmittable (s : State) : Prop := ∀ b ∈ s.tr.buffer, emittable b = true

/-- The timestep is the accounted clocks of the buffer, modulo 2^32 (R40 through R241 to R246). -/
def timestepAccounted (s : State) : Prop :=
  s.tr.timestep = BitVec.ofNat 32 (accountedClocks s.tr.buffer)

/-- The writer's index never passes the end of its buffer (R240). -/
def writerInBounds (s : State) : Prop := ∀ p, s.writer.program = some p → s.writer.ip ≤ p.length

/-- The recorded transitions lie in the past and in strictly rising order (R245). -/
def eventsOrdered (s : State) : Prop :=
  (∀ e ∈ s.writer.events, e.1 < s.writer.time) ∧ s.writer.events.Pairwise (fun a b => a.1 < b.1)

/-- The units of R92. -/
inductive Agent where
  | crcUnit
  | bitTrack
  | track
  | lowering
  | writer
deriving DecidableEq, Repr

/-- Which unit an instruction belongs to (R92, R73); the lowering is the one that reads one unit and writes
another. -/
def agentOf : Instr → Agent
  | .crcInit _ | .crcCalc _ | .crcUpdate _ | .crcUpdateByte _ | .crcReset | .crcReseed _ | .crcRead => .crcUnit
  | .btReset | .btRaw _ _ | .btMfm _ | .btFm _ | .btRead => .bitTrack
  | .btToTrack _ _ => .lowering
  | .trReset | .trEmitWrgate _ | .trEmitFlux _ | .trEmitWaitIndex _ | .trEmitStop => .track
  | .trGetTime | .trGetBuffer | .trGetGate => .track
  | .waitTimer _ | .waitIndex _ | .stop | .waitHstmd | .transition | .wrGate _ => .writer

/-- Run instructions one after the other, stopping at the first fault or refusal (R72). -/
def execAll : List Instr → State → Host.Outcome State Fault Refusal
  | [], s => .next s
  | i :: rest, s =>
    match exec i s with
    | .next t => execAll rest t
    | .fault r => .fault r
    | .refused r => .refused r

/-- The bytes an instruction feeds to the CRC (R33). -/
def fedBytes : Instr → List Byte
  | .crcUpdate bytes => bytes
  | .crcUpdateByte b => [b]
  | _ => []

/-- The instructions that restart the CRC (R33). -/
def restartsCrc : Instr → Bool
  | .crcInit _ | .crcReset | .crcReseed _ => true
  | _ => false

/-- Cell `j` of R181: the cell at that index, 0 beyond both ends. -/
def cellAt (cells : List Bit) (j : Int) : Bit := if j < 0 then false else cells.getD j.toNat false

/-- `mul` of the transition at cell `i`, judged on the cells i-2 to i+2 (R181, R182). -/
def cellMul (cells : List Bit) (i : Int) : Int :=
  if [cellAt cells (i - 2), cellAt cells (i - 1), cellAt cells i, cellAt cells (i + 1), cellAt cells (i + 2)]
      = [false, false, true, false, true] then 1
  else if [cellAt cells (i - 2), cellAt cells (i - 1), cellAt cells i, cellAt cells (i + 1), cellAt cells (i + 2)]
      = [true, false, true, false, false] then -1
  else 0

/-- How many 0 cells stand immediately before cell `i`, back to the 1 cell before it or to the start (R185's z). -/
def zerosBefore (cells : List Bit) : Nat → Nat
  | 0 => 0
  | i + 1 => if cells.getD i false then 0 else zerosBefore cells i + 1

/-- The waits of R185, cell by cell: `(z + 1) * half + mul * precomp` for each 1 cell. -/
def waitsByCell (cellTime precomp : Nat) (cells : List Bit) : List Int :=
  ((List.range cells.length).filter (fun i => cells.getD i false)).map
    (fun i => ((zerosBefore cells i + 1) * halfCell cellTime : Nat) + cellMul cells i * precomp)

/-- No two adjacent cells are both 1 (R158). -/
def noAdjacentOnes : List Bit → Bool
  | true :: true :: _ => false
  | _ :: rest => noAdjacentOnes rest
  | [] => true

/-- Nowhere four zeros follow a 1 and precede a 1: between two 1 cells at most 3 zeros (R158). `sinceOne` counts
the zeros since the latest 1, `none` before the first 1. -/
def zeroRunsAtMost3 (sinceOne : Option Nat) : List Bit → Bool
  | [] => true
  | true :: rest => (match sinceOne with | some n => decide (n ≤ 3) | none => true) && zeroRunsAtMost3 (some 0) rest
  | false :: rest => zeroRunsAtMost3 (sinceOne.map (· + 1)) rest

/-- The closed form of one flux's bytes (R218). -/
def fluxClosedForm (gate : Gate) (time : Nat) : List Byte :=
  if time = 0 then [0x02#8]
  else
    let q := (time - 1) / 129
    let r := time - 129 * q
    List.replicate q 0xFF#8 ++
      [if 2 ≤ r then 0x80#8 ||| BitVec.ofNat 8 (r - 2) else if gate = .write then 0x01#8 else 0x00#8] ++ [0x02#8]

/-- The closed form of an index wait's bytes (R213): 63s first, then the remainder. -/
def indexWaitClosedForm (n : Nat) : List Byte :=
  List.replicate (n / 63) 0x7F#8 ++ (if n % 63 = 0 then [] else [0x40#8 ||| BitVec.ofNat 8 (n % 63)])

/-- ASCII "123456789", the check value's bytes (R131). -/
def checkBytes : List Byte := [0x31#8, 0x32#8, 0x33#8, 0x34#8, 0x35#8, 0x36#8, 0x37#8, 0x38#8, 0x39#8]

/-- An operand of an unsigned type as the host writes it (R91). -/
def hostNum {n : Nat} (v : BitVec n) : Operand := .num (v.toNat : Int)

/-- A byte sequence as the host writes it (R91). -/
def hostSeq (bytes : List Byte) : Operand := .seq (bytes.map (fun b => (b.toNat : Int)))

end Sys2Proof.Machine
end

