-- ==== Sys2Proof/Certificates/Slice0/Obligations.lean ====
section
/-! DEFINITION. The statements for the provers. Each docstring names the rules it formalises; where a clause rests
on a choice of the model it says so and names the log entry. -/

open Sys2Proof Sys2Proof.Machine

/-! ### The operations of the CRC unit -/

/-- R123: CRC_INIT, its code, its default seed, its effect (and nothing else changes), the same effect as
CRC_RESEED. -/
def Obligations.CrcInitSetsSeedAndRemainder : Prop :=
  ∀ (seed : Word16) (s : State),
    decode (.request ⟨0x10#8, [hostNum seed]⟩) = .ok (.crcInit seed) ∧
    decode (.request ⟨0x10#8, []⟩) = .ok (.crcInit 0xFFFF#16) ∧
    exec (.crcInit seed) s = .next { s with crc := ⟨seed, seed⟩, response := some (.ok .none) } ∧
    exec (.crcInit seed) s = exec (.crcReseed seed) s

/-- R124: CRC_CALC answers the CRC of the bytes from `current` and writes nothing; the empty sequence gives
`current`; the check value (R131). -/
def Obligations.CrcCalcAnswersWithoutWriting : Prop :=
  ∀ (bytes : List Byte) (s : State),
    decode (.request ⟨0x11#8, [hostSeq bytes]⟩) = .ok (.crcCalc bytes) ∧
    exec (.crcCalc bytes) s = .next { s with response := some (.ok (.crc (crcSeq s.crc.current bytes))) } ∧
    exec (.crcCalc []) s = .next { s with response := some (.ok (.crc s.crc.current)) } ∧
    crcSeq 0xFFFF#16 checkBytes = 0x29B1#16

/-- R125: CRC_UPDATE puts the CRC of the bytes into `current` and answers it; `initial` stays; the example. -/
def Obligations.CrcUpdateFoldsTheBytesIn : Prop :=
  ∀ (bytes : List Byte) (s : State),
    decode (.request ⟨0x12#8, [hostSeq bytes]⟩) = .ok (.crcUpdate bytes) ∧
    exec (.crcUpdate bytes) s =
      .next { s with crc := ⟨s.crc.initial, crcSeq s.crc.current bytes⟩,
                     response := some (.ok (.crc (crcSeq s.crc.current bytes))) } ∧
    exec (.crcUpdate []) s = .next { s with response := some (.ok (.crc s.crc.current)) } ∧
    crcSeq 0xFFFF#16 [0xA1#8, 0xA1#8, 0xA1#8] = 0xCDB4#16

/-- R126: CRC_UPDATE_BYTE is CRC_UPDATE with one byte; the example. -/
def Obligations.CrcUpdateByteIsUpdateWithOneByte : Prop :=
  ∀ (b : Byte) (s : State),
    decode (.request ⟨0x13#8, [hostNum b]⟩) = .ok (.crcUpdateByte b) ∧
    exec (.crcUpdateByte b) s =
      .next { s with crc := ⟨s.crc.initial, crcByte s.crc.current b⟩,
                     response := some (.ok (.crc (crcByte s.crc.current b))) } ∧
    exec (.crcUpdateByte b) s = exec (.crcUpdate [b]) s ∧
    crcByte 0xFFFF#16 0xA1#8 = 0x443B#16

/-- R127: CRC_RESET returns `current` to the seed; repeating it has no further effect; the example. -/
def Obligations.CrcResetReturnsToTheSeed : Prop :=
  ∀ s : State,
    decode (.request ⟨0x14#8, []⟩) = .ok .crcReset ∧
    exec .crcReset s =
      .next { s with crc := ⟨s.crc.initial, s.crc.initial⟩, response := some (.ok .none) } ∧
    (∀ t, exec .crcReset s = .next t → exec .crcReset t = .next t) ∧
    (∃ t, execAll [.crcInit 0x1D0F#16, .crcUpdate [0x41#8], .crcReset] s = .next t ∧ t.crc.current = 0x1D0F#16)

/-- R128: CRC_RESEED sets both registers, has no default, and the same effect as CRC_INIT; the example. -/
def Obligations.CrcReseedSetsBothRegisters : Prop :=
  ∀ (seed : Word16) (s : State),
    decode (.request ⟨0x15#8, [hostNum seed]⟩) = .ok (.crcReseed seed) ∧
    decode (.request ⟨0x15#8, []⟩) = .error (.operandRefused 0x15#8) ∧
    exec (.crcReseed seed) s = .next { s with crc := ⟨seed, seed⟩, response := some (.ok .none) } ∧
    exec (.crcReseed seed) s = exec (.crcInit seed) s ∧
    (∃ t, execAll [.crcReseed 0#16, .crcUpdate checkBytes] s = .next t ∧
      t.response = some (.ok (.crc 0x31C3#16)))

/-- R129: CRC_READ answers `current` and writes nothing; the example. -/
def Obligations.CrcReadAnswersTheRemainder : Prop :=
  ∀ s : State,
    decode (.request ⟨0x16#8, []⟩) = .ok .crcRead ∧
    exec .crcRead s = .next { s with response := some (.ok (.crc s.crc.current)) } ∧
    (∃ t, execAll [.crcInit 0xFFFF#16, .crcUpdate checkBytes, .crcRead] s = .next t ∧
      t.response = some (.ok (.crc 0x29B1#16)))

/-! ### Laws of the CRC -/

/-- R122 with R34's table: the table form is the bit-serial step, for every remainder and byte. -/
def Obligations.CrcTableFormIsTheBitSerialStep : Prop :=
  ∀ (c : Word16) (b : Byte), crcByte c b = (c <<< 8) ^^^ crcTableAt (c.extractLsb' 8 8 ^^^ b)

/-- R130: the continuation law, of the function and of the operations. -/
def Obligations.CrcContinuationLaw : Prop :=
  ∀ (x y : List Byte) (c : Word16) (s : State),
    crcSeq c (x ++ y) = crcSeq (crcSeq c x) y ∧
    execAll [.crcUpdate x, .crcUpdate y] s = execAll [.crcUpdate (x ++ y)] s

/-- R133: checking a region followed by its CRC, high byte first, answers 0. -/
def Obligations.CheckingARegionWithItsCrcAnswersZero : Prop :=
  ∀ (m : List Byte) (s : State),
    exec (.crcCalc (m ++ [(crcSeq s.crc.current m).extractLsb' 8 8, (crcSeq s.crc.current m).extractLsb' 0 8])) s =
      .next { s with response := some (.ok (.crc 0#16)) }

/-- R33: `current` is the CRC, from `initial`, of all bytes fed since the CRC was last restarted, whatever other
instructions run in between; and each restart leaves `current = initial`. -/
def Obligations.CurrentIsTheCrcOfTheBytesFed : Prop :=
  (∀ (is : List Instr) (s t : State), execAll is s = .next t → (∀ i ∈ is, restartsCrc i = false) →
    s.crc.current = s.crc.initial →
    t.crc.initial = s.crc.initial ∧ t.crc.current = crcSeq s.crc.initial (is.flatMap fedBytes)) ∧
  (∀ (i : Instr) (s t : State), restartsCrc i = true → exec i s = .next t → t.crc.current = t.crc.initial)

/-! ### The operations of the BitTrack -/

/-- R150: BT_RESET clears the cells and the last data bit, and touches nothing else. -/
def Obligations.BtResetClearsTheBitTrack : Prop :=
  ∀ s : State,
    decode (.request ⟨0x20#8, []⟩) = .ok .btReset ∧
    exec .btReset s = .next { s with bt := ⟨[], false⟩, response := some (.ok .none) }

/-- R151, R302: BT_RAW appends bits nbits-1 down to 0 and sets the last data bit to bit 0, whatever the higher
bits are; over 32 bits it is INVALID_RAW_WIDTH and nothing is written. -/
def Obligations.BtRawAppendsTheField : Prop :=
  ∀ (pattern : Word32) (nbits : Nat) (s : State),
    decode (.request ⟨0x21#8, [hostNum pattern, .num nbits]⟩) = .ok (.btRaw pattern nbits) ∧
    decode (.request ⟨0x21#8, [hostNum pattern]⟩) = .ok (.btRaw pattern 16) ∧
    (nbits ≤ 32 → exec (.btRaw pattern nbits) s =
      .next { s with
        bt := ⟨s.bt.cells ++ (List.range nbits).map (fun k => pattern.getLsbD (nbits - 1 - k)), pattern.getLsbD 0⟩,
        response := some (.ok .none) }) ∧
    (32 < nbits → exec (.btRaw pattern nbits) s =
      .next { s with response := some (.error (.invalidRawWidth nbits)) })

/-- R152: BT_MFM appends clock and data for each data bit, bit 7 first, the clock 1 only between two 0 data bits;
the last data bit becomes bit 0. -/
def Obligations.BtMfmAppendsClockAndData : Prop :=
  ∀ (b : Byte) (s : State),
    decode (.request ⟨0x22#8, [hostNum b]⟩) = .ok (.btMfm b) ∧
    exec (.btMfm b) s =
      .next { s with
        bt := ⟨s.bt.cells ++ (List.range 8).flatMap (fun k =>
            [!((if k = 0 then s.bt.lastDataBit else b.getLsbD (8 - k)) || b.getLsbD (7 - k)), b.getLsbD (7 - k)]),
          b.getLsbD 0⟩,
        response := some (.ok .none) }

/-- R153: BT_FM appends a 1 clock and the data for each data bit, bit 7 first, whatever the last data bit was. -/
def Obligations.BtFmAppendsOnesAndData : Prop :=
  ∀ (b : Byte) (s : State),
    decode (.request ⟨0x23#8, [hostNum b]⟩) = .ok (.btFm b) ∧
    exec (.btFm b) s =
      .next { s with
        bt := ⟨s.bt.cells ++ (List.range 8).flatMap (fun k => [true, b.getLsbD (7 - k)]), b.getLsbD 0⟩,
        response := some (.ok .none) }

/-- R154: BT_READ answers the cells and the last data bit and writes nothing; the example. -/
def Obligations.BtReadAnswersTheCells : Prop :=
  ∀ s : State,
    decode (.request ⟨0x25#8, []⟩) = .ok .btRead ∧
    exec .btRead s = .next { s with response := some (.ok (.cells s.bt.cells s.bt.lastDataBit)) } ∧
    (∃ t, execAll [.btReset, .btMfm 0xA1#8, .btRead] s = .next t ∧
      t.response = some (.ok (.cells ((List.range 16).map (fun k => (0x44A9#16).getLsbD (15 - k))) true)))

/-! ### Laws of the encoder -/

/-- R156, R157: the A1-sync and C2-sync marks against MFM of 0xA1 and 0xC2, whatever the last data bit: one
cell differs, a clock cell, 10 and 8; the last data bits agree. -/
def Obligations.SyncMarksOmitOneClock : Prop :=
  ∀ s : State, ∃ a m c n : State,
    exec (.btRaw 0x4489#32 16) s = .next a ∧ exec (.btMfm 0xA1#8) s = .next m ∧
    exec (.btRaw 0x5224#32 16) s = .next c ∧ exec (.btMfm 0xC2#8) s = .next n ∧
    a.bt.cells = s.bt.cells ++ (List.range 16).map (fun k => (0x4489#16).getLsbD (15 - k)) ∧
    m.bt.cells = s.bt.cells ++ (List.range 16).map (fun k => (0x44A9#16).getLsbD (15 - k)) ∧
    c.bt.cells = s.bt.cells ++ (List.range 16).map (fun k => (0x5224#16).getLsbD (15 - k)) ∧
    n.bt.cells = s.bt.cells ++ (List.range 16).map (fun k => (0x52A4#16).getLsbD (15 - k)) ∧
    (∀ k, a.bt.cells[k]? ≠ m.bt.cells[k]? ↔ k = s.bt.cells.length + 10) ∧
    (∀ k, c.bt.cells[k]? ≠ n.bt.cells[k]? ↔ k = s.bt.cells.length + 8) ∧
    a.bt.lastDataBit = true ∧ m.bt.lastDataBit = true ∧ c.bt.lastDataBit = false ∧ n.bt.lastDataBit = false

/-- R158: in cells that BT_MFM alone produced, from any last data bit, no two 1 cells are adjacent and between
two 1 cells there are at most 3 zeros; the two sync patterns keep both laws. -/
def Obligations.MfmRunLengthLaws : Prop :=
  (∀ (bytes : List Byte) (s : State), s.bt.cells = [] →
    ∃ t, execAll (bytes.map .btMfm) s = .next t ∧
      noAdjacentOnes t.bt.cells = true ∧ zeroRunsAtMost3 none t.bt.cells = true) ∧
  (∀ p ∈ [0x4489#16, 0x5224#16],
    noAdjacentOnes ((List.range 16).map (fun k => p.getLsbD (15 - k))) = true ∧
    zeroRunsAtMost3 none ((List.range 16).map (fun k => p.getLsbD (15 - k))) = true)

/-! ### The lowering -/

/-- R181, R182, R185: the shift register's waits are, cell by cell, `(z + 1) * half + mul * precomp`, with `mul`
judged on the cells i-2 to i+2 and zeros beyond both ends. -/
def Obligations.LoweringWaitsCellByCell : Prop :=
  ∀ (cellTime precomp : Nat) (cells : List Bit),
    lowerWaits cellTime precomp cells = waitsByCell cellTime precomp cells

/-- R180, R187, R189: where no wait is negative, BT_TO_TRACK appends one flux for each 1 cell, in cell order,
to what the Track holds, adds the waits and one clock per 1 cell to the timestep, keeps the gate, and writes nothing
else. -/
def Obligations.BtToTrackEmitsOneFluxPerOneCell : Prop :=
  ∀ (cellTime precomp : Nat) (s : State),
    decode (.request ⟨0x24#8, [.num cellTime, .num precomp]⟩) = .ok (.btToTrack cellTime precomp) ∧
    decode (.request ⟨0x24#8, [.num cellTime]⟩) = .ok (.btToTrack cellTime 0) ∧
    ((∀ t ∈ waitsByCell cellTime precomp s.bt.cells, 0 ≤ t) →
      exec (.btToTrack cellTime precomp) s =
        .next { s with
          tr := ⟨s.tr.buffer ++
              (waitsByCell cellTime precomp s.bt.cells).flatMap (fun t => fluxClosedForm s.tr.gate t.toNat),
            s.tr.gate,
            s.tr.timestep +
              BitVec.ofInt 32 ((waitsByCell cellTime precomp s.bt.cells).sum + (s.bt.cells.count true : Nat))⟩,
          response := some (.ok .none) })

/-- R183, R304: a wait is negative exactly where a 1 0 1 0 0 window meets a precomp over `2 * half`; then
BT_TO_TRACK answers INVALID_FLUX_TIME with `2 * half - precomp` and writes nothing, and nowhere else does it answer
INVALID_FLUX_TIME. -/
def Obligations.BtToTrackRaisesOnANegativeWait : Prop :=
  ∀ (cellTime precomp : Nat) (s : State),
    (((∃ i, cellMul s.bt.cells i = -1) ∧ 2 * (cellTime / 2) < precomp) ↔
      ∃ t ∈ waitsByCell cellTime precomp s.bt.cells, t < 0) ∧
    ((∃ i, cellMul s.bt.cells i = -1) → 2 * (cellTime / 2) < precomp →
      exec (.btToTrack cellTime precomp) s =
        .next { s with
          response := some (.error (.invalidFluxTime (2 * (cellTime / 2 : Nat) - (precomp : Int)))) }) ∧
    (∀ t z, exec (.btToTrack cellTime precomp) s = .next t → t.response = some (.error (.invalidFluxTime z)) →
      (∃ i, cellMul s.bt.cells i = -1) ∧ 2 * (cellTime / 2) < precomp ∧
      z = 2 * (cellTime / 2 : Nat) - (precomp : Int))

/-- R184: a lowering that answers OK appends exactly one TRANSITION byte per 1 cell, for every precomp. -/
def Obligations.OneTransitionBytePerOneCell : Prop :=
  ∀ (cellTime precomp : Nat) (s t : State),
    exec (.btToTrack cellTime precomp) s = .next t → t.response = some (.ok .none) →
    t.tr.buffer.count 0x02#8 = s.tr.buffer.count 0x02#8 + s.bt.cells.count true

/-- R191: zeros after the last 1 cell emit nothing, and a stream with no 1 cell appends nothing. -/
def Obligations.LoweringDropsTheTail : Prop :=
  ∀ (cellTime precomp n : Nat) (s : State),
    (∀ t, exec (.btToTrack cellTime precomp) s = .next t →
      exec (.btToTrack cellTime precomp)
          { s with bt := ⟨s.bt.cells ++ List.replicate n false, s.bt.lastDataBit⟩ } =
        .next { t with bt := ⟨s.bt.cells ++ List.replicate n false, s.bt.lastDataBit⟩ }) ∧
    (true ∉ s.bt.cells →
      exec (.btToTrack cellTime precomp) s = .next { s with response := some (.ok .none) })

/-- R192: an odd cell_time lowers like the even one below it; a cell_time of 0 or 1 without precompensation gives
bare TRANSITION bytes. -/
def Obligations.OddAndTinyCellTimes : Prop :=
  ∀ (cellTime precomp : Nat) (s : State),
    exec (.btToTrack (2 * cellTime + 1) precomp) s = exec (.btToTrack (2 * cellTime) precomp) s ∧
    (cellTime ≤ 1 → exec (.btToTrack cellTime 0) s =
      .next { s with
        tr := ⟨s.tr.buffer ++ List.replicate (s.bt.cells.count true) 0x02#8, s.tr.gate,
          s.tr.timestep + BitVec.ofNat 32 (s.bt.cells.count true)⟩,
        response := some (.ok .none) })

/-! ### The operations of the Track -/

/-- R210: TR_RESET clears the Track and emits nothing. -/
def Obligations.TrResetClearsTheTrack : Prop :=
  ∀ s : State,
    decode (.request ⟨0x30#8, []⟩) = .ok .trReset ∧
    exec .trReset s = .next { s with tr := ⟨[], .read, 0#32⟩, response := some (.ok .none) }

/-- R211: TR_EMIT_WRGATE appends the gate's byte, sets the gate and costs one clock, also where the gate stays. -/
def Obligations.TrEmitWrgateSetsTheGate : Prop :=
  ∀ (g : Gate) (s : State),
    decode (.request ⟨0x31#8, [.gate g]⟩) = .ok (.trEmitWrgate g) ∧
    exec (.trEmitWrgate g) s =
      .next { s with
        tr := ⟨s.tr.buffer ++ [if g = .write then 0x01#8 else 0x00#8], g, s.tr.timestep + 1#32⟩,
        response := some (.ok .none) }

/-- R212, R218, R304: TR_EMIT_FLUX appends the closed form's bytes and adds `time + 1`, the gate stays; a negative
time is INVALID_FLUX_TIME and nothing is written. -/
def Obligations.TrEmitFluxClosedForm : Prop :=
  ∀ s : State,
    (∀ z : Int, decode (.request ⟨0x32#8, [.num z]⟩) = .ok (.trEmitFlux z)) ∧
    (∀ time : Nat, exec (.trEmitFlux time) s =
      .next { s with
        tr := ⟨s.tr.buffer ++ fluxClosedForm s.tr.gate time, s.tr.gate, s.tr.timestep + BitVec.ofNat 32 (time + 1)⟩,
        response := some (.ok .none) }) ∧
    (∀ z : Int, z < 0 → exec (.trEmitFlux z) s = .next { s with response := some (.error (.invalidFluxTime z)) })

/-- R219: the wait clocks of the bytes before the TRANSITION sum to exactly the time. -/
def Obligations.FluxWaitClocksSumToTheTime : Prop :=
  ∀ (time : Nat) (s : State), ∃ t bs,
    exec (.trEmitFlux time) s = .next t ∧ t.tr.buffer = s.tr.buffer ++ bs ++ [0x02#8] ∧
    accountedClocks bs = time ∧ 0x02#8 ∉ bs

/-- R213, R220, R303: TR_EMIT_WAIT_INDEX appends 63s, then the remainder: `ceil(n/63)` bytes whose low six bits
are 1 to 63 and sum to n; the timestep stays; n below 1 is INVALID_WAIT_INDEX and nothing is written. -/
def Obligations.TrEmitWaitIndexSplitsTheCount : Prop :=
  ∀ s : State,
    (∀ z : Int, decode (.request ⟨0x33#8, [.num z]⟩) = .ok (.trEmitWaitIndex z)) ∧
    decode (.request ⟨0x33#8, []⟩) = .ok (.trEmitWaitIndex 1) ∧
    (∀ n : Nat, 1 ≤ n → exec (.trEmitWaitIndex n) s =
      .next { s with
        tr := ⟨s.tr.buffer ++ indexWaitClosedForm n, s.tr.gate, s.tr.timestep⟩, response := some (.ok .none) }) ∧
    (∀ n : Nat, (indexWaitClosedForm n).length = (n + 62) / 63 ∧
      ((indexWaitClosedForm n).map (fun b => (b.extractLsb' 0 6).toNat)).sum = n ∧
      ∀ b ∈ indexWaitClosedForm n, 0x41 ≤ b.toNat ∧ b.toNat ≤ 0x7F) ∧
    (∀ z : Int, z < 1 →
      exec (.trEmitWaitIndex z) s = .next { s with response := some (.error (.invalidWaitIndex z)) })

/-- R214: TR_EMIT_STOP appends 0x3F, free of clocks; emits after it are accepted. -/
def Obligations.TrEmitStopAppendsStop : Prop :=
  ∀ s : State,
    decode (.request ⟨0x34#8, []⟩) = .ok .trEmitStop ∧
    exec .trEmitStop s =
      .next { s with tr := ⟨s.tr.buffer ++ [0x3F#8], s.tr.gate, s.tr.timestep⟩, response := some (.ok .none) } ∧
    (∃ t, execAll [.trEmitStop, .trEmitFlux 0] s = .next t ∧ t.tr.buffer = s.tr.buffer ++ [0x3F#8, 0x02#8])

/-- R215: TR_GET_TIME answers the timestep and writes nothing; after a reset and one flux of T it answers
T + 1. -/
def Obligations.TrGetTimeAnswersTheTimestep : Prop :=
  ∀ (time : Nat) (s : State),
    decode (.request ⟨0x35#8, []⟩) = .ok .trGetTime ∧
    exec .trGetTime s = .next { s with response := some (.ok (.time s.tr.timestep)) } ∧
    (∃ t, execAll [.trReset, .trEmitFlux time, .trGetTime] s = .next t ∧
      t.response = some (.ok (.time (BitVec.ofNat 32 (time + 1)))))

/-- R216, R306: TR_GET_BUFFER answers the whole buffer up to TRACK_CAP bytes, and TRACK_TOO_LONG with the length
above; nothing is written. TRACK_CAP, a parameter, is a field of the model's own (log 7). -/
def Obligations.TrGetBufferChecksTheCap : Prop :=
  ∀ s : State,
    decode (.request ⟨0x36#8, []⟩) = .ok .trGetBuffer ∧
    (s.tr.buffer.length ≤ s.trackCap →
      exec .trGetBuffer s = .next { s with response := some (.ok (.buffer s.tr.buffer)) }) ∧
    (s.trackCap < s.tr.buffer.length →
      exec .trGetBuffer s = .next { s with response := some (.error (.trackTooLong s.tr.buffer.length)) })

/-- R217: TR_GET_GATE answers the gate and writes nothing; the example. -/
def Obligations.TrGetGateAnswersTheGate : Prop :=
  ∀ s : State,
    decode (.request ⟨0x37#8, []⟩) = .ok .trGetGate ∧
    exec .trGetGate s = .next { s with response := some (.ok (.gate s.tr.gate)) } ∧
    (∃ t, execAll [.trReset, .trEmitWrgate .write, .trGetGate] s = .next t ∧
      t.response = some (.ok (.gate .write)))

/-! ### The commands of the writer -/

/-- R241: WAIT_TIMER takes w + 2 clocks; 0x8B waits 13. -/
def Obligations.WaitTimerTakesItsClocks : Prop :=
  ∀ (w : BitVec 7) (s : State),
    decodeCommand (0x80#8 ||| w.setWidth 8) = .ok (.waitTimer w) ∧
    exec (.waitTimer w) s =
      .next { s with writer := { s.writer with ip := s.writer.ip + 1, time := s.writer.time + (w.toNat + 2) } } ∧
    byteClocks (0x80#8 ||| w.setWidth 8) = w.toNat + 2 ∧ byteClocks 0x8B#8 = 13

/-- R242, R247: WAIT_INDEX of 1 to 63 takes a drawn duration, whatever it is, and its accounted cost is 0; count 0
is the reserved byte 0x40, which faults. That the draw is numbered by `draws` is the model's choice (log 8). -/
def Obligations.WaitIndexTakesADraw : Prop :=
  ∀ (k : BitVec 6) (s : State),
    (k ≠ 0#6 →
      exec (.waitIndex k) s =
        .next { s with
          writer := { s.writer with
            ip := s.writer.ip + 1, time := s.writer.time + Config.indexWaitDuration s.draws },
          draws := s.draws + 1 } ∧
      byteClocks (0x40#8 ||| k.setWidth 8) = 0) ∧
    exec (.waitIndex 0#6) s = .fault (.reservedCommand 0x40#8)

/-- R243: STOP halts: the interpreter stays at it and nothing changes, so no later byte is executed. R243 says that
it halts and that `ip` stays; that a further writer step executes the STOP again and changes nothing is the model's
reading (log 14), and writer steps are inputs of the model (log 4). -/
def Obligations.StopHaltsTheWriter : Prop :=
  (∀ s : State, exec .stop s = .next s) ∧
  (∀ (n : Nat) (p : List Byte) (s : State), s.writer.program = some p → p[s.writer.ip]? = some 0x3F#8 →
    s.inputs = List.replicate n .writerStep → Sys2Proof.core.run n s = .next { s with inputs := [] })

/-- R244: WAIT_HSTMD takes a drawn duration, whatever it is. That the draw is numbered by `draws` is the model's
choice (log 8). -/
def Obligations.WaitHstmdTakesADraw : Prop :=
  ∀ s : State,
    decodeCommand 0x03#8 = .ok .waitHstmd ∧
    exec .waitHstmd s =
      .next { s with
        writer := { s.writer with
          ip := s.writer.ip + 1, time := s.writer.time + Config.hstmdWaitDuration s.draws },
        draws := s.draws + 1 }

/-- R245: TRANSITION records the time at which it starts with the gate, and takes one clock. -/
def Obligations.TransitionRecordsAnEvent : Prop :=
  ∀ s : State,
    decodeCommand 0x02#8 = .ok .transition ∧ byteClocks 0x02#8 = 1 ∧
    exec .transition s =
      .next { s with
        writer := ⟨s.writer.program, s.writer.ip + 1, s.writer.gate, s.writer.time + 1,
          s.writer.events ++ [(s.writer.time, s.writer.gate)]⟩ }

/-- R246: WR_GATE sets the gate to its bit and takes one clock. -/
def Obligations.WrGateSetsTheWritersGate : Prop :=
  ∀ (g : Gate) (s : State),
    decodeCommand 0x00#8 = .ok (.wrGate .read) ∧ decodeCommand 0x01#8 = .ok (.wrGate .write) ∧
    byteClocks 0x00#8 = 1 ∧ byteClocks 0x01#8 = 1 ∧
    exec (.wrGate g) s =
      .next { s with
        writer := ⟨s.writer.program, s.writer.ip + 1, g, s.writer.time + 1, s.writer.events⟩ }

/-! ### Encodings -/

/-- R92, R95: decode and encode agree on every well-formed instruction, every operand at every value. -/
def Obligations.DecodeOfEncodeIsTheInstruction : Prop :=
  ∀ i : Instr, i.wellFormed = true → decode (encode i) = .ok i

/-- R100: the command decoder, by ranges of bytes; each command byte is the encoding of what it decodes to (R95),
and no byte is both an operation code of R92 and a command (R99, DEDUCED, log 1). -/
def Obligations.CommandDecoderByRanges : Prop :=
  (∀ b : Byte,
    (0x80 ≤ b.toNat → decodeCommand b = .ok (.waitTimer (BitVec.ofNat 7 (b.toNat - 0x80)))) ∧
    (0x41 ≤ b.toNat → b.toNat ≤ 0x7F → decodeCommand b = .ok (.waitIndex (BitVec.ofNat 6 (b.toNat - 0x40)))) ∧
    (b.toNat = 0x3F → decodeCommand b = .ok .stop) ∧
    (b.toNat = 0x03 → decodeCommand b = .ok .waitHstmd) ∧
    (b.toNat = 0x02 → decodeCommand b = .ok .transition) ∧
    (b.toNat = 0x01 → decodeCommand b = .ok (.wrGate .write)) ∧
    (b.toNat = 0x00 → decodeCommand b = .ok (.wrGate .read)) ∧
    (b.toNat = 0x40 ∨ (0x04 ≤ b.toNat ∧ b.toNat ≤ 0x3E) → decodeCommand b = .error (.reservedCommand b))) ∧
  (∀ (b : Byte) (i : Instr), decodeCommand b = .ok i →
    encode i = .command b ∧ i.wellFormed = true ∧ opOf b = none)

/-- Words written out from R92 and R95, one or more for each family of the spec's operation and command files (the
CRC, the BitTrack, the lowering, the Track, the writer), decode to their instructions. That a bare table word which is an
operation code is read as a request is the model's reading (log 1), as are the operands it stands for (log 2); the
lowering's request is written out with its operands. -/
def Obligations.WordsOfEachFamilyDecode : Prop :=
  decodeTableWord 8 0b00010110 = some .crcRead ∧ decodeTableWord 8 0b00010100 = some .crcReset ∧
  decodeTableWord 8 0b00100000 = some .btReset ∧ decodeTableWord 8 0b00100101 = some .btRead ∧
  decode (.request ⟨0b00100100#8, [.num 400, .num 13]⟩) = .ok (.btToTrack 400 13) ∧
  decodeTableWord 8 0b00110100 = some .trEmitStop ∧ decodeTableWord 8 0b00110101 = some .trGetTime ∧
  decodeTableWord 8 0b10001011 = some (.waitTimer 11#7) ∧ decodeTableWord 8 0b01000010 = some (.waitIndex 2#6) ∧
  decodeTableWord 8 0b00111111 = some .stop ∧ decodeTableWord 8 0b00000001 = some (.wrGate .write)

/-- R93, R305: an undefined operation code, whatever its operands, answers INVALID_OPERATION with the code and
performs nothing else. The request reaches the block as the model's next input (log 4). -/
def Obligations.UndefinedCodesAnswerInvalidOperation : Prop :=
  ∀ (op : Byte) (operands : List Operand) (rest : List Input) (s : State),
    (op.toNat ≤ 0x0F ∨ (0x17 ≤ op.toNat ∧ op.toNat ≤ 0x1F) ∨ (0x26 ≤ op.toNat ∧ op.toNat ≤ 0x2F) ∨
      0x38 ≤ op.toNat) →
    s.inputs = .request ⟨op, operands⟩ :: rest →
    step s = .next { s with inputs := rest, response := some (.error (.invalidOperation op)) }

/-- R94: an operand that does not fit its type is refused at the interface, never truncated. That the refusal is
a refused step is the model's choice (log 11). -/
def Obligations.OperandsThatDoNotFitAreRefused : Prop :=
  ∀ (v : Int) (x : Operand) (vs : List Int) (rest : List Input) (s : State),
    ((v < 0 ∨ 0x10000 ≤ v) → ∀ op ∈ [0x10#8, 0x15#8],
      step { s with inputs := .request ⟨op, [.num v]⟩ :: rest } = .refused (.operandRefused op)) ∧
    ((v < 0 ∨ 0x100 ≤ v) → ∀ op ∈ [0x13#8, 0x22#8, 0x23#8],
      step { s with inputs := .request ⟨op, [.num v]⟩ :: rest } = .refused (.operandRefused op)) ∧
    ((∃ e ∈ vs, e < 0 ∨ 0x100 ≤ e) → ∀ op ∈ [0x11#8, 0x12#8],
      step { s with inputs := .request ⟨op, [.seq vs]⟩ :: rest } = .refused (.operandRefused op)) ∧
    ((v < 0 ∨ 0x100000000 ≤ v) → ∀ operands ∈ [[.num v], [.num v, x]],
      step { s with inputs := .request ⟨0x21#8, operands⟩ :: rest } = .refused (.operandRefused 0x21#8)) ∧
    (v < 0 →
      step { s with inputs := .request ⟨0x21#8, [x, .num v]⟩ :: rest } = .refused (.operandRefused 0x21#8) ∧
      ∀ operands ∈ [[.num v], [.num v, x], [x, .num v]],
        step { s with inputs := .request ⟨0x24#8, operands⟩ :: rest } = .refused (.operandRefused 0x24#8))

/-! ### Steps -/

/-- A step runs the decoded instruction: a request that decodes, or the writer's next byte when the writer moves,
is executed on the state with that input taken off (R6, R240; the inputs are the model's, log 4). -/
def Obligations.StepRunsTheDecodedInstruction : Prop :=
  (∀ (r : Request) (i : Instr) (rest : List Input) (s : State),
    s.inputs = .request r :: rest → decode (.request r) = .ok i → step s = exec i { s with inputs := rest }) ∧
  (∀ (p : List Byte) (b : Byte) (i : Instr) (rest : List Input) (s : State),
    s.inputs = .writerStep :: rest → s.writer.program = some p → p[s.writer.ip]? = some b →
    decode (.command b) = .ok i → step s = exec i { s with inputs := rest })

/-- R247, R240, R249: the writer faults at a reserved byte and past its last byte. -/
def Obligations.WriterFaultsAtReservedBytesAndPastTheEnd : Prop :=
  ∀ (p : List Byte) (rest : List Input) (s : State),
    s.inputs = .writerStep :: rest → s.writer.program = some p →
    (∀ b, p[s.writer.ip]? = some b → (b.toNat = 0x40 ∨ (0x04 ≤ b.toNat ∧ b.toNat ≤ 0x3E)) →
      step s = .fault (.reservedCommand b)) ∧
    (p.length ≤ s.writer.ip → step s = .fault .ranOffEnd)

/-- R330: the block reset, on the host's request as at power-on, puts every block field at R47's value, as CRC_INIT
0xFFFF, BT_RESET, TR_RESET do. The reset request is an input of the model (log 4). -/
def Obligations.BlockResetEqualsTheThreeResets : Prop :=
  ∀ (rest : List Input) (s : State), s.inputs = .reset :: rest →
    ∃ t u, step s = .next t ∧ execAll [.crcInit 0xFFFF#16, .btReset, .trReset] s = .next u ∧
      t.crc = u.crc ∧ t.bt = u.bt ∧ t.tr = u.tr ∧
      t.crc = ⟨0xFFFF#16, 0xFFFF#16⟩ ∧ t.bt = ⟨[], false⟩ ∧ t.tr = ⟨[], .read, 0#32⟩ ∧
      State.reset.crc = t.crc ∧ State.reset.bt = t.bt ∧ State.reset.tr = t.tr

/-- R76, R240, R332: a hand-off starts the interpreter on the copy; with nothing asked the machine waits, and a
writer with no buffer stays as it is. That nothing else changes is the model's reading (log 4, log 9, log 10). -/
def Obligations.HandOffStartsTheWriterAndIdleWaits : Prop :=
  ∀ (p : List Byte) (rest : List Input) (s : State),
    (s.inputs = .handOff p :: rest →
      step s = .next { s with inputs := rest, writer := ⟨some p, 0, .read, 0, []⟩ }) ∧
    (s.inputs = [] → step s = .next s) ∧
    (s.inputs = .writerStep :: rest → s.writer.program = none → step s = .next { s with inputs := rest })

/-- R47: the state after reset, every block field at the value the spec gives it; the invariants hold there. The
clauses on the other fields are the model's choice: R240 gives its initial values to the interpreter of a buffer that
has been handed over, and that the writer holds them before any hand-off is log 9; TRACK_CAP, R8's default, stands in
a field of the model's own, log 7. -/
def Obligations.ResetStateAndItsInvariants : Prop :=
  State.reset.crc = ⟨0xFFFF#16, 0xFFFF#16⟩ ∧ State.reset.bt = ⟨[], false⟩ ∧
  State.reset.tr = ⟨[], .read, 0#32⟩ ∧ State.reset.trackCap = 524288 ∧
  State.reset.writer.ip = 0 ∧ State.reset.writer.gate = .read ∧ State.reset.writer.time = 0 ∧
  State.reset.writer.events = [] ∧
  timestepAccounted State.reset ∧ bufferEmittable State.reset ∧ writerInBounds State.reset ∧
  eventsOrdered State.reset

/-! ### Errors and frames over all instructions -/

/-- R300 to R304, R306: which operations answer which error, exactly when. -/
def Obligations.ErrorsExactlyWhenTheRulesSay : Prop :=
  ∀ (i : Instr) (s : State) (e : OpError), agentOf i ≠ .writer →
    (exec i s = .next { s with response := some (.error e) } ↔
      match i with
      | .btRaw _ nbits => 32 < nbits ∧ e = .invalidRawWidth nbits
      | .trEmitWaitIndex n => n < 1 ∧ e = .invalidWaitIndex n
      | .trEmitFlux time => time < 0 ∧ e = .invalidFluxTime time
      | .trGetBuffer => s.trackCap < s.tr.buffer.length ∧ e = .trackTooLong s.tr.buffer.length
      | .btToTrack cellTime precomp =>
          (waitsByCell cellTime precomp s.bt.cells).find? (fun t => decide (t < 0)) = some (2 * (cellTime / 2 : Nat) - (precomp : Int)) ∧
          e = .invalidFluxTime (2 * (cellTime / 2 : Nat) - (precomp : Int))
      | _ => False)

/-- R301: every block operation answers, and one that answers an error has written no state. -/
def Obligations.FailedOperationsWriteNothing : Prop :=
  ∀ (i : Instr) (s : State), agentOf i ≠ .writer →
    ∃ t r, exec i s = .next t ∧ t.response = some r ∧
      (∀ e, r = .error e → t = { s with response := some (.error e) })

/-- R71: the six reading operations write no state; the four resets reach the same state when repeated. -/
def Obligations.ReadsWriteNothingAndResetsRepeat : Prop :=
  ∀ (bytes : List Byte) (seed : Word16) (s t : State),
    (∀ i ∈ [.crcCalc bytes, .crcRead, .trGetTime, .trGetBuffer, .btRead, .trGetGate],
      exec i s = .next t → t = { s with response := t.response }) ∧
    (∀ i ∈ [.btReset, .trReset, .crcReset, .crcReseed seed], exec i s = .next t → exec i t = .next t)

/-- R73, R331: an instruction of one unit leaves the other units as they are; the lowering alone reads the
BitTrack and writes the Track. The clauses on the model's own fields are the model's choice: a writer's command keeps the
response (log 5), no instruction touches the inputs (log 4) or TRACK_CAP (log 7), and only the writer's counts a draw
(log 8). -/
def Obligations.UnitsChangeOnlyThemselves : Prop :=
  ∀ (i : Instr) (s t : State), exec i s = .next t →
    (agentOf i ≠ .crcUnit → t.crc = s.crc) ∧
    (agentOf i ≠ .bitTrack → t.bt = s.bt) ∧
    (agentOf i ≠ .track → agentOf i ≠ .lowering → t.tr = s.tr) ∧
    (agentOf i ≠ .writer → t.writer = s.writer ∧ t.draws = s.draws) ∧
    (agentOf i = .writer → t.response = s.response) ∧
    t.inputs = s.inputs ∧ t.trackCap = s.trackCap

/-- R73, R76: what an instruction does to its unit, and what it answers, depends on that unit and on no other (the
lowering: on the BitTrack and the Track); so units, block and writer learn nothing of one another. Besides its unit, a
Track operation depends on the parameter TRACK_CAP (the field `trackCap` is the model's, log 7), and a writer's command
on the number of the next draw, which it may advance (the counter `draws` is the model's, log 8). -/
def Obligations.UnitsLearnNothingOfOneAnother : Prop :=
  ∀ (i : Instr) (s₁ s₂ t₁ : State), exec i s₁ = .next t₁ →
    (agentOf i = .crcUnit → s₂.crc = s₁.crc →
      ∃ t₂, exec i s₂ = .next t₂ ∧ t₂.crc = t₁.crc ∧ t₂.response = t₁.response) ∧
    (agentOf i = .bitTrack → s₂.bt = s₁.bt →
      ∃ t₂, exec i s₂ = .next t₂ ∧ t₂.bt = t₁.bt ∧ t₂.response = t₁.response) ∧
    (agentOf i = .track → s₂.tr = s₁.tr → s₂.trackCap = s₁.trackCap →
      ∃ t₂, exec i s₂ = .next t₂ ∧ t₂.tr = t₁.tr ∧ t₂.response = t₁.response) ∧
    (agentOf i = .lowering → s₂.bt = s₁.bt → s₂.tr = s₁.tr →
      ∃ t₂, exec i s₂ = .next t₂ ∧ t₂.tr = t₁.tr ∧ t₂.response = t₁.response) ∧
    (agentOf i = .writer → s₂.writer = s₁.writer → s₂.draws = s₁.draws →
      ∃ t₂, exec i s₂ = .next t₂ ∧ t₂.writer = t₁.writer ∧ t₂.draws = t₁.draws)

/-- R36, R37, R38, R61, R62: no instruction removes or changes a cell but BT_RESET, or a command byte but TR_RESET;
the Track's gate changes only by TR_EMIT_WRGATE and TR_RESET. -/
def Obligations.SequencesOnlyGrow : Prop :=
  ∀ (i : Instr) (s t : State), exec i s = .next t →
    (i ≠ .btReset → ∃ cells, t.bt.cells = s.bt.cells ++ cells) ∧
    (i ≠ .trReset → ∃ bytes, t.tr.buffer = s.tr.buffer ++ bytes) ∧
    (i ≠ .trReset → (∀ g, i ≠ .trEmitWrgate g) → t.tr.gate = s.tr.gate)

/-! ### Invariants that every step keeps -/

/-- R40, R241 to R246: the timestep stays the accounted clocks of the buffer's bytes, modulo 2^32. -/
def Obligations.EveryStepKeepsTheTimestepAccounted : Prop :=
  ∀ s t : State, step s = .next t → timestepAccounted s → timestepAccounted t

/-- R221, R102: every byte of the buffer stays in the emitted alphabet, and each byte of that alphabet is a valid
command (R100); so the buffer, once TR_EMIT_STOP (R214) has ended it, is a well-formed program (R249). -/
def Obligations.EveryStepKeepsTheBufferEmittable : Prop :=
  (∀ s t : State, step s = .next t → bufferEmittable s → bufferEmittable t) ∧
  (∀ b : Byte, emittable b = true → ∃ i, decodeCommand b = .ok i) ∧
  (∀ s : State, bufferEmittable s →
    ∃ t, exec .trEmitStop s = .next t ∧ wellFormedProgram t.tr.buffer = true)

/-- R240, R245: the writer's index stays within its buffer, and its recorded transitions stay in the past in
strictly rising order. -/
def Obligations.EveryStepKeepsTheWriterInOrder : Prop :=
  ∀ s t : State, step s = .next t → writerInBounds s → eventsOrdered s → writerInBounds t ∧ eventsOrdered t

/-! ### Programs of the writer -/

/-- R248: run from its hand-off to its first STOP, a program of emittable bytes takes its accounted clocks plus the
draws of its index waits, and records one event per TRANSITION; where it is the Track's whole buffer, the accounted
clocks are the timestep modulo 2^32 (log 16). Which draw each index wait takes, and that the counter `draws` then
stands that much higher, is the model's numbering of draws (log 8); writer steps are inputs of the model (log 4). -/
def Obligations.WriterTimeIsTimestepPlusDraws : Prop :=
  ∀ (p rest : List Byte) (later : List Input) (s : State),
    s.writer = Writer.start (some (p ++ 0x3F#8 :: rest)) → (∀ b ∈ p, emittable b = true ∧ b ≠ 0x3F#8) →
    s.inputs = List.replicate p.length .writerStep ++ later →
    (∃ t, Sys2Proof.core.run p.length s = .next t ∧ t.inputs = later ∧ t.writer.ip = p.length ∧
      t.writer.time = accountedClocks p + drawnIndexClocks s.draws p ∧
      t.writer.events.length = p.count 0x02#8 ∧ t.draws = s.draws + indexWaits p ∧
      t.crc = s.crc ∧ t.bt = s.bt ∧ t.tr = s.tr ∧ t.response = s.response) ∧
    (timestepAccounted s → s.tr.buffer = p ++ [0x3F#8] → s.tr.timestep = BitVec.ofNat 32 (accountedClocks p))

/-- R249: run from its hand-off, a program faults if and only if it is not well formed, and within as many writer
steps as it has bytes, plus one. That no fault comes in the steps after the STOP is the model's reading of a halted
writer (log 14); writer steps are inputs of the model (log 4). -/
def Obligations.WellFormedProgramsAreThoseThatNeverFault : Prop :=
  ∀ (p : List Byte) (n : Nat) (s : State),
    s.writer = Writer.start (some p) → s.inputs = List.replicate n .writerStep →
    (wellFormedProgram p = true → ∃ t, Sys2Proof.core.run n s = .next t) ∧
    (wellFormedProgram p = false → p.length < n → ∃ f, Sys2Proof.core.run n s = .fault f)
end

