-- ==== Sys2Proof/Laws/Decode.lean ====
section
/-! SUPPORT. What reading an operand does: a value that fits is read as it is, any other is refused (R94). -/

namespace Sys2Proof

@[simp] theorem readWord_toNat {n : Nat} (v : BitVec n) : readWord n (v.toNat : Int) = some v := by
  show (if v.toNat < 2 ^ n then some (BitVec.ofNat n v.toNat) else none) = some v
  rw [if_pos v.isLt, BitVec.ofNat_toNat, BitVec.setWidth_eq]

theorem readWord_eq_none {n : Nat} (v : Int) (h : v < 0 ∨ 2 ^ n ≤ v) : readWord n v = none := by
  cases v with
  | ofNat m =>
    have hm : ¬ m < 2 ^ n := by
      rcases h with h | h
      · exact absurd h (by simp only [Int.ofNat_eq_natCast]; omega)
      · intro hlt
        have : (m : Int) < 2 ^ n := by exact_mod_cast hlt
        simp only [Int.ofNat_eq_natCast] at h
        omega
    exact if_neg hm
  | negSucc m => rfl

@[simp] theorem readNat_natCast (n : Nat) : readNat (n : Int) = some n := rfl

theorem readNat_eq_none (v : Int) (h : v < 0) : readNat v = none := by
  cases v with
  | ofNat m => exact absurd h (by simp only [Int.ofNat_eq_natCast]; omega)
  | negSucc m => rfl

@[simp] theorem readBytes_toNat (bytes : List Byte) :
    readBytes (bytes.map (fun b => (b.toNat : Int))) = some bytes := by
  induction bytes with
  | nil => rfl
  | cons b bytes ih => simp [readBytes, ih]

/-- A sequence with an element that is no byte is refused whole. -/
theorem readBytes_eq_none (vs : List Int) (h : ∃ v ∈ vs, v < 0 ∨ 2 ^ 8 ≤ v) : readBytes vs = none := by
  induction vs with
  | nil => obtain ⟨v, hv, _⟩ := h; cases hv
  | cons a vs ih =>
    obtain ⟨v, hv, hb⟩ := h
    rcases List.mem_cons.mp hv with rfl | hv
    · simp [readBytes, readWord_eq_none (n := 8) v hb]
    · simp [readBytes, ih ⟨v, hv, hb⟩]

end Sys2Proof
end

