-- ==== Sys2Proof/Laws/State.lean ====
section
/-! SUPPORT. One lemma per field per update of the state and of its records, so that no proof unfolds an
update. -/

namespace Sys2Proof.Machine

@[simp] theorem State.withCrc_crc (s : State) (c : Crc) :
    (s.withCrc c).crc = c := rfl
@[simp] theorem State.withCrc_bt (s : State) (c : Crc) :
    (s.withCrc c).bt = s.bt := rfl
@[simp] theorem State.withCrc_tr (s : State) (c : Crc) :
    (s.withCrc c).tr = s.tr := rfl
@[simp] theorem State.withCrc_writer (s : State) (c : Crc) :
    (s.withCrc c).writer = s.writer := rfl
@[simp] theorem State.withCrc_response (s : State) (c : Crc) :
    (s.withCrc c).response = s.response := rfl
@[simp] theorem State.withCrc_inputs (s : State) (c : Crc) :
    (s.withCrc c).inputs = s.inputs := rfl
@[simp] theorem State.withCrc_trackCap (s : State) (c : Crc) :
    (s.withCrc c).trackCap = s.trackCap := rfl
@[simp] theorem State.withCrc_draws (s : State) (c : Crc) :
    (s.withCrc c).draws = s.draws := rfl

@[simp] theorem State.withBt_crc (s : State) (b : BitTrack) :
    (s.withBt b).crc = s.crc := rfl
@[simp] theorem State.withBt_bt (s : State) (b : BitTrack) :
    (s.withBt b).bt = b := rfl
@[simp] theorem State.withBt_tr (s : State) (b : BitTrack) :
    (s.withBt b).tr = s.tr := rfl
@[simp] theorem State.withBt_writer (s : State) (b : BitTrack) :
    (s.withBt b).writer = s.writer := rfl
@[simp] theorem State.withBt_response (s : State) (b : BitTrack) :
    (s.withBt b).response = s.response := rfl
@[simp] theorem State.withBt_inputs (s : State) (b : BitTrack) :
    (s.withBt b).inputs = s.inputs := rfl
@[simp] theorem State.withBt_trackCap (s : State) (b : BitTrack) :
    (s.withBt b).trackCap = s.trackCap := rfl
@[simp] theorem State.withBt_draws (s : State) (b : BitTrack) :
    (s.withBt b).draws = s.draws := rfl

@[simp] theorem State.withTr_crc (s : State) (t : Track) :
    (s.withTr t).crc = s.crc := rfl
@[simp] theorem State.withTr_bt (s : State) (t : Track) :
    (s.withTr t).bt = s.bt := rfl
@[simp] theorem State.withTr_tr (s : State) (t : Track) :
    (s.withTr t).tr = t := rfl
@[simp] theorem State.withTr_writer (s : State) (t : Track) :
    (s.withTr t).writer = s.writer := rfl
@[simp] theorem State.withTr_response (s : State) (t : Track) :
    (s.withTr t).response = s.response := rfl
@[simp] theorem State.withTr_inputs (s : State) (t : Track) :
    (s.withTr t).inputs = s.inputs := rfl
@[simp] theorem State.withTr_trackCap (s : State) (t : Track) :
    (s.withTr t).trackCap = s.trackCap := rfl
@[simp] theorem State.withTr_draws (s : State) (t : Track) :
    (s.withTr t).draws = s.draws := rfl

@[simp] theorem State.withWriter_crc (s : State) (w : Writer) :
    (s.withWriter w).crc = s.crc := rfl
@[simp] theorem State.withWriter_bt (s : State) (w : Writer) :
    (s.withWriter w).bt = s.bt := rfl
@[simp] theorem State.withWriter_tr (s : State) (w : Writer) :
    (s.withWriter w).tr = s.tr := rfl
@[simp] theorem State.withWriter_writer (s : State) (w : Writer) :
    (s.withWriter w).writer = w := rfl
@[simp] theorem State.withWriter_response (s : State) (w : Writer) :
    (s.withWriter w).response = s.response := rfl
@[simp] theorem State.withWriter_inputs (s : State) (w : Writer) :
    (s.withWriter w).inputs = s.inputs := rfl
@[simp] theorem State.withWriter_trackCap (s : State) (w : Writer) :
    (s.withWriter w).trackCap = s.trackCap := rfl
@[simp] theorem State.withWriter_draws (s : State) (w : Writer) :
    (s.withWriter w).draws = s.draws := rfl

@[simp] theorem State.withResponse_crc (s : State) (r : Response) :
    (s.withResponse r).crc = s.crc := rfl
@[simp] theorem State.withResponse_bt (s : State) (r : Response) :
    (s.withResponse r).bt = s.bt := rfl
@[simp] theorem State.withResponse_tr (s : State) (r : Response) :
    (s.withResponse r).tr = s.tr := rfl
@[simp] theorem State.withResponse_writer (s : State) (r : Response) :
    (s.withResponse r).writer = s.writer := rfl
@[simp] theorem State.withResponse_response (s : State) (r : Response) :
    (s.withResponse r).response = some r := rfl
@[simp] theorem State.withResponse_inputs (s : State) (r : Response) :
    (s.withResponse r).inputs = s.inputs := rfl
@[simp] theorem State.withResponse_trackCap (s : State) (r : Response) :
    (s.withResponse r).trackCap = s.trackCap := rfl
@[simp] theorem State.withResponse_draws (s : State) (r : Response) :
    (s.withResponse r).draws = s.draws := rfl

@[simp] theorem State.withInputs_crc (s : State) (is : List Input) :
    (s.withInputs is).crc = s.crc := rfl
@[simp] theorem State.withInputs_bt (s : State) (is : List Input) :
    (s.withInputs is).bt = s.bt := rfl
@[simp] theorem State.withInputs_tr (s : State) (is : List Input) :
    (s.withInputs is).tr = s.tr := rfl
@[simp] theorem State.withInputs_writer (s : State) (is : List Input) :
    (s.withInputs is).writer = s.writer := rfl
@[simp] theorem State.withInputs_response (s : State) (is : List Input) :
    (s.withInputs is).response = s.response := rfl
@[simp] theorem State.withInputs_inputs (s : State) (is : List Input) :
    (s.withInputs is).inputs = is := rfl
@[simp] theorem State.withInputs_trackCap (s : State) (is : List Input) :
    (s.withInputs is).trackCap = s.trackCap := rfl
@[simp] theorem State.withInputs_draws (s : State) (is : List Input) :
    (s.withInputs is).draws = s.draws := rfl

@[simp] theorem State.countDraw_crc (s : State) :
    (s.countDraw).crc = s.crc := rfl
@[simp] theorem State.countDraw_bt (s : State) :
    (s.countDraw).bt = s.bt := rfl
@[simp] theorem State.countDraw_tr (s : State) :
    (s.countDraw).tr = s.tr := rfl
@[simp] theorem State.countDraw_writer (s : State) :
    (s.countDraw).writer = s.writer := rfl
@[simp] theorem State.countDraw_response (s : State) :
    (s.countDraw).response = s.response := rfl
@[simp] theorem State.countDraw_inputs (s : State) :
    (s.countDraw).inputs = s.inputs := rfl
@[simp] theorem State.countDraw_trackCap (s : State) :
    (s.countDraw).trackCap = s.trackCap := rfl
@[simp] theorem State.countDraw_draws (s : State) :
    (s.countDraw).draws = s.draws + 1 := rfl

@[simp] theorem Writer.advance_program (n : Nat) (w : Writer) : (w.advance n).program = w.program := rfl
@[simp] theorem Writer.advance_ip (n : Nat) (w : Writer) : (w.advance n).ip = w.ip + 1 := rfl
@[simp] theorem Writer.advance_gate (n : Nat) (w : Writer) : (w.advance n).gate = w.gate := rfl
@[simp] theorem Writer.advance_time (n : Nat) (w : Writer) : (w.advance n).time = w.time + n := rfl
@[simp] theorem Writer.advance_events (n : Nat) (w : Writer) : (w.advance n).events = w.events := rfl

@[simp] theorem Track.emit_buffer (bytes : List Byte) (n : Nat) (t : Track) :
    (t.emit bytes n).buffer = t.buffer ++ bytes := rfl
@[simp] theorem Track.emit_gate (bytes : List Byte) (n : Nat) (t : Track) :
    (t.emit bytes n).gate = t.gate := rfl
@[simp] theorem Track.emit_timestep (bytes : List Byte) (n : Nat) (t : Track) :
    (t.emit bytes n).timestep = t.timestep + BitVec.ofNat 32 n := rfl

@[simp] theorem BitTrack.append_cells (cs : List Bit) (d : Bit) (bt : BitTrack) :
    (bt.append cs d).cells = bt.cells ++ cs := rfl
@[simp] theorem BitTrack.append_lastDataBit (cs : List Bit) (d : Bit) (bt : BitTrack) :
    (bt.append cs d).lastDataBit = d := rfl

@[simp] theorem Writer.start_program (p : Option (List Byte)) : (Writer.start p).program = p := rfl
@[simp] theorem Writer.start_ip (p : Option (List Byte)) : (Writer.start p).ip = 0 := rfl
@[simp] theorem Writer.start_gate (p : Option (List Byte)) : (Writer.start p).gate = .read := rfl
@[simp] theorem Writer.start_time (p : Option (List Byte)) : (Writer.start p).time = 0 := rfl
@[simp] theorem Writer.start_events (p : Option (List Byte)) : (Writer.start p).events = [] := rfl

end Sys2Proof.Machine
end

