-- ==== Sys2Proof/Laws/Ops.lean ====
section
/-! SUPPORT. What each shared operation does, said once: the provers cite these instead of unfolding. -/

namespace Sys2Proof.Machine

/-- An operation that ends OK changes nothing but the response. -/
theorem finish_eq_next_iff (result : Result) (s t : State) :
    finish result s = .next t ↔ t = s.withResponse (.ok result) := by
  constructor
  · intro h; cases h; rfl
  · rintro rfl; rfl

/-- An operation that raises changes nothing but the response (R301). -/
theorem raise_eq_next_iff (e : OpError) (s t : State) :
    raise e s = .next t ↔ t = s.withResponse (.error e) := by
  constructor
  · intro h; cases h; rfl
  · rintro rfl; rfl

/-- Only an undefined operation code lets the machine go on, and then only the response changes. -/
theorem reject_eq_next_iff (e : DecodeError) (s t : State) :
    reject e s = .next t ↔ ∃ op, e = .undefinedOp op ∧ t = s.withResponse (.error (.invalidOperation op)) := by
  cases e with
  | undefinedOp op => simp [reject, raise_eq_next_iff]
  | operandRefused op => simp [reject]
  | reservedCommand b => simp [reject]

@[simp] theorem resetBlock_eq (s : State) :
    resetBlock s = { s with crc := Crc.reset, bt := BitTrack.reset, tr := Track.reset } := rfl

@[simp] theorem handOff_eq (p : List Byte) (s : State) :
    handOff p s = { s with writer := Writer.start (some p) } := rfl

@[simp] theorem takeInput_cons (s : State) (i : Input) (rest : List Input) (h : s.inputs = i :: rest) :
    takeInput s = { s with inputs := rest } := by
  simp [takeInput, State.withInputs, h]

theorem fetch_of_inputs_nil (s : State) (h : s.inputs = []) : fetch s = .idle := by simp [fetch, h]

theorem fetch_of_request (s : State) (r : Request) (rest : List Input) (h : s.inputs = .request r :: rest) :
    fetch s = .code (.request r) := by simp [fetch, h]

theorem fetch_of_reset (s : State) (rest : List Input) (h : s.inputs = .reset :: rest) :
    fetch s = .reset := by simp [fetch, h]

theorem fetch_of_handOff (s : State) (p : List Byte) (rest : List Input) (h : s.inputs = .handOff p :: rest) :
    fetch s = .handOff p := by simp [fetch, h]

theorem fetch_of_writerStep (s : State) (rest : List Input) (h : s.inputs = .writerStep :: rest) :
    fetch s = fetchCommand s.writer := by simp [fetch, h]

/-- What a step that goes on can have been: nothing to do, one instruction, an undefined operation code, a
block reset, or a hand-off. -/
theorem step_next_cases (s t : State) (h : step s = .next t) :
    (fetch s = .idle ∧ t = takeInput s) ∨
    (∃ c i, fetch s = .code c ∧ decode c = .ok i ∧ exec i (takeInput s) = .next t) ∨
    (∃ c op, fetch s = .code c ∧ decode c = .error (.undefinedOp op) ∧
      t = (takeInput s).withResponse (.error (.invalidOperation op))) ∨
    (fetch s = .reset ∧ t = resetBlock (takeInput s)) ∨
    (∃ p, fetch s = .handOff p ∧ t = handOff p (takeInput s)) := by
  unfold step at h
  cases hf : fetch s with
  | idle => rw [hf] at h; cases h; exact .inl ⟨rfl, rfl⟩
  | code c =>
    rw [hf] at h
    cases hd : decode c with
    | ok i => simp only [hd] at h; exact .inr (.inl ⟨c, i, rfl, hd, h⟩)
    | error e =>
      simp only [hd, reject_eq_next_iff] at h
      obtain ⟨op, rfl, ht⟩ := h
      exact .inr (.inr (.inl ⟨c, op, rfl, hd, ht⟩))
  | reset => rw [hf] at h; cases h; exact .inr (.inr (.inr (.inl ⟨rfl, rfl⟩)))
  | handOff p => rw [hf] at h; cases h; exact .inr (.inr (.inr (.inr ⟨p, rfl, rfl⟩)))
  | ranOffEnd => rw [hf] at h; cases h

end Sys2Proof.Machine
end

