-- ==== Sys2Proof/Laws/PerInstr.lean ====
section
/-! SUPPORT. Per instruction: the first byte of its encoding is a word of its row of the opcode table. -/

namespace Sys2Proof.Laws.EncodingMatchesRow

/-- The byte that names the instruction: the operation code of a request (R91), or the command byte. -/
def codeByte : Code → Byte
  | .request r => r.op
  | .command b => b

/-- The (match, mask) of the instruction's row of spec/opcode_table.json. -/
def tableRow : Instr → Byte × Byte
  | .crcInit _ => (0x10#8, 0xFF#8)
  | .crcCalc _ => (0x11#8, 0xFF#8)
  | .crcUpdate _ => (0x12#8, 0xFF#8)
  | .crcUpdateByte _ => (0x13#8, 0xFF#8)
  | .crcReset => (0x14#8, 0xFF#8)
  | .crcReseed _ => (0x15#8, 0xFF#8)
  | .crcRead => (0x16#8, 0xFF#8)
  | .btReset => (0x20#8, 0xFF#8)
  | .btRaw _ _ => (0x21#8, 0xFF#8)
  | .btMfm _ => (0x22#8, 0xFF#8)
  | .btFm _ => (0x23#8, 0xFF#8)
  | .btToTrack _ _ => (0x24#8, 0xFF#8)
  | .btRead => (0x25#8, 0xFF#8)
  | .trReset => (0x30#8, 0xFF#8)
  | .trEmitWrgate _ => (0x31#8, 0xFF#8)
  | .trEmitFlux _ => (0x32#8, 0xFF#8)
  | .trEmitWaitIndex _ => (0x33#8, 0xFF#8)
  | .trEmitStop => (0x34#8, 0xFF#8)
  | .trGetTime => (0x35#8, 0xFF#8)
  | .trGetBuffer => (0x36#8, 0xFF#8)
  | .trGetGate => (0x37#8, 0xFF#8)
  | .waitTimer _ => (0x80#8, 0x80#8)
  | .waitIndex _ => (0x40#8, 0xC0#8)
  | .stop => (0x3F#8, 0xFF#8)
  | .waitHstmd => (0x03#8, 0xFF#8)
  | .transition => (0x02#8, 0xFF#8)
  | .wrGate _ => (0x00#8, 0xFE#8)

/-- A well-formed instruction's encoding agrees with its row on the row's fixed bits. -/
def Statement (i : Instr) : Prop :=
  i.wellFormed = true → codeByte (encode i) &&& (tableRow i).2 = (tableRow i).1

theorem crcInit (seed : Word16) : Statement (.crcInit seed) :=
  fun _ => by simp [codeByte, encode, tableRow]

theorem crcCalc (bytes : List Byte) : Statement (.crcCalc bytes) :=
  fun _ => by simp [codeByte, encode, tableRow]

theorem crcUpdate (bytes : List Byte) : Statement (.crcUpdate bytes) :=
  fun _ => by simp [codeByte, encode, tableRow]

theorem crcUpdateByte (b : Byte) : Statement (.crcUpdateByte b) :=
  fun _ => by simp [codeByte, encode, tableRow]

theorem crcReset : Statement .crcReset := fun _ => rfl

theorem crcReseed (seed : Word16) : Statement (.crcReseed seed) :=
  fun _ => by simp [codeByte, encode, tableRow]

theorem crcRead : Statement .crcRead := fun _ => rfl

theorem btReset : Statement .btReset := fun _ => rfl

theorem btRaw (pattern : Word32) (nbits : Nat) : Statement (.btRaw pattern nbits) :=
  fun _ => by simp [codeByte, encode, tableRow]

theorem btMfm (b : Byte) : Statement (.btMfm b) :=
  fun _ => by simp [codeByte, encode, tableRow]

theorem btFm (b : Byte) : Statement (.btFm b) :=
  fun _ => by simp [codeByte, encode, tableRow]

theorem btToTrack (cellTime : Nat) (precomp : Nat) : Statement (.btToTrack cellTime precomp) :=
  fun _ => by simp [codeByte, encode, tableRow]

theorem btRead : Statement .btRead := fun _ => rfl

theorem trReset : Statement .trReset := fun _ => rfl

theorem trEmitWrgate (gate : Gate) : Statement (.trEmitWrgate gate) :=
  fun _ => by simp [codeByte, encode, tableRow]

theorem trEmitFlux (time : Int) : Statement (.trEmitFlux time) :=
  fun _ => by simp [codeByte, encode, tableRow]

theorem trEmitWaitIndex (n : Int) : Statement (.trEmitWaitIndex n) :=
  fun _ => by simp [codeByte, encode, tableRow]

theorem trEmitStop : Statement .trEmitStop := fun _ => rfl

theorem trGetTime : Statement .trGetTime := fun _ => rfl

theorem trGetBuffer : Statement .trGetBuffer := fun _ => rfl

theorem trGetGate : Statement .trGetGate := fun _ => rfl

theorem waitTimer (w : BitVec 7) : Statement (.waitTimer w) := by
  revert w
  unfold Statement
  decide

theorem waitIndex (k : BitVec 6) : Statement (.waitIndex k) := by
  revert k
  unfold Statement
  decide

theorem stop : Statement .stop := fun _ => rfl

theorem waitHstmd : Statement .waitHstmd := fun _ => rfl

theorem transition : Statement .transition := fun _ => rfl

theorem wrGate (g : Gate) : Statement (.wrGate g) := by
  cases g <;> exact fun _ => rfl

end Sys2Proof.Laws.EncodingMatchesRow
end

