-- ==== Sys2Proof/Laws/Units.lean ====
section
/-! SUPPORT. The small lemmas of the units' own definitions. -/

namespace Sys2Proof.Machine

@[simp] theorem bitsDown_length {w : Nat} (v : BitVec w) (n : Nat) : (bitsDown v n).length = n := by
  induction n with
  | zero => rfl
  | succ n ih => simp [bitsDown, ih]

@[simp] theorem crcSeq_nil (c : Word16) : crcSeq c [] = c := rfl

@[simp] theorem crcSeq_cons (c : Word16) (b : Byte) (rest : List Byte) :
    crcSeq c (b :: rest) = crcSeq (crcByte c b) rest := rfl

@[simp] theorem mfmBit_cells (bt : BitTrack) (d : Bit) :
    (mfmBit bt d).cells = bt.cells ++ [!(bt.lastDataBit || d), d] := rfl

@[simp] theorem mfmBit_lastDataBit (bt : BitTrack) (d : Bit) : (mfmBit bt d).lastDataBit = d := rfl

@[simp] theorem fmBit_cells (bt : BitTrack) (d : Bit) : (fmBit bt d).cells = bt.cells ++ [true, d] := rfl

@[simp] theorem fmBit_lastDataBit (bt : BitTrack) (d : Bit) : (fmBit bt d).lastDataBit = d := rfl

@[simp] theorem emitFlux_buffer (time : Nat) (tr : Track) :
    (emitFlux time tr).buffer = tr.buffer ++ fluxBytes tr.gate time := rfl

@[simp] theorem emitFlux_gate (time : Nat) (tr : Track) : (emitFlux time tr).gate = tr.gate := rfl

@[simp] theorem emitFlux_timestep (time : Nat) (tr : Track) :
    (emitFlux time tr).timestep = tr.timestep + BitVec.ofNat 32 (time + 1) := rfl

@[simp] theorem emitWaits_nil (tr : Track) : emitWaits [] tr = tr := rfl

@[simp] theorem emitWaits_cons (wait : Int) (waits : List Int) (tr : Track) :
    emitWaits (wait :: waits) tr = emitWaits waits (emitFlux wait.toNat tr) := rfl

/-- Emitting waits keeps the gate (R189). -/
@[simp] theorem emitWaits_gate (waits : List Int) (tr : Track) : (emitWaits waits tr).gate = tr.gate := by
  induction waits generalizing tr with
  | nil => rfl
  | cons w ws ih => simp [ih]

/-- The bytes that emitting waits appends. -/
theorem emitWaits_buffer (waits : List Int) (tr : Track) :
    (emitWaits waits tr).buffer = tr.buffer ++ waits.flatMap (fun t => fluxBytes tr.gate t.toNat) := by
  induction waits generalizing tr with
  | nil => simp
  | cons w ws ih => simp [ih]

/-- Every BT_TO_TRACK either raises the first negative wait or emits them all (R180). -/
theorem execBtToTrack_cases (cellTime precomp : Nat) (s : State) :
    (∃ t, (lowerWaits cellTime precomp s.bt.cells).find? (fun t => decide (t < 0)) = some t ∧
      execBtToTrack cellTime precomp s = raise (.invalidFluxTime t) s) ∨
    ((∀ t ∈ lowerWaits cellTime precomp s.bt.cells, 0 ≤ t) ∧
      execBtToTrack cellTime precomp s =
        finish .none (s.withTr (emitWaits (lowerWaits cellTime precomp s.bt.cells) s.tr))) := by
  unfold execBtToTrack
  cases h : (lowerWaits cellTime precomp s.bt.cells).find? (fun t => decide (t < 0)) with
  | some t => exact .inl ⟨t, rfl, rfl⟩
  | none =>
    refine .inr ⟨fun t ht => ?_, rfl⟩
    have := List.find?_eq_none.mp h t ht
    simpa using this

end Sys2Proof.Machine
end

