-- ==== Sys2Proof/Machine/Assembly.lean ====
section
/-! DEFINITION. The writing of programs the spec uses (30_encoding.md R103) and its host-side macros (R104). No
meaning depends on them. -/

namespace Sys2Proof.Machine

/-- `READ` or `WRITE` (R103). -/
def gateText : Gate → String
  | .read => "READ"
  | .write => "WRITE"

/-- Elements with a comma and a space between them (R103). -/
def commaList : List String → String
  | [] => ""
  | [x] => x
  | x :: y :: rest => x ++ ", " ++ commaList (y :: rest)

/-- A byte sequence as `[49, 50]` (R103). -/
def bytesText (bytes : List Byte) : String := "[" ++ commaList (bytes.map (fun b => toString b.toNat)) ++ "]"

/-- An instruction in the syntax of R103, numbers in decimal. -/
def assembly : Instr → String
  | .crcInit seed => "CRC_INIT " ++ toString seed.toNat
  | .crcCalc bytes => "CRC_CALC " ++ bytesText bytes
  | .crcUpdate bytes => "CRC_UPDATE " ++ bytesText bytes
  | .crcUpdateByte b => "CRC_UPDATE_BYTE " ++ toString b.toNat
  | .crcReset => "CRC_RESET"
  | .crcReseed seed => "CRC_RESEED " ++ toString seed.toNat
  | .crcRead => "CRC_READ"
  | .btReset => "BT_RESET"
  | .btRaw pattern nbits => "BT_RAW " ++ commaList [toString pattern.toNat, toString nbits]
  | .btMfm b => "BT_MFM " ++ toString b.toNat
  | .btFm b => "BT_FM " ++ toString b.toNat
  | .btToTrack cellTime precomp => "BT_TO_TRACK " ++ commaList [toString cellTime, toString precomp]
  | .btRead => "BT_READ"
  | .trReset => "TR_RESET"
  | .trEmitWrgate g => "TR_EMIT_WRGATE " ++ gateText g
  | .trEmitFlux time => "TR_EMIT_FLUX " ++ toString time
  | .trEmitWaitIndex n => "TR_EMIT_WAIT_INDEX " ++ toString n
  | .trEmitStop => "TR_EMIT_STOP"
  | .trGetTime => "TR_GET_TIME"
  | .trGetBuffer => "TR_GET_BUFFER"
  | .trGetGate => "TR_GET_GATE"
  | .waitTimer w => "WAIT " ++ toString (w.toNat + 2)
  | .waitIndex k => "WAITIDX " ++ toString k.toNat
  | .stop => "STOP"
  | .waitHstmd => "HSTMD"
  | .transition => "FLUX"
  | .wrGate g => "GATE " ++ gateText g

/-- `A1SYNC` (R104). -/
def a1Sync : List Instr := [.btRaw 0x4489#32 16]

/-- `C2SYNC` (R104). -/
def c2Sync : List Instr := [.btRaw 0x5224#32 16]

/-- `MFMCRC` (R104, R132): read the CRC, then encode it, high byte first. `c` is what CRC_READ answered. -/
def mfmCrc (c : Word16) : List Instr := [.crcRead, .btMfm (crcHigh c), .btMfm (crcLow c)]

/-- `MFMN n, b` (R104). -/
def mfmN (n : Nat) (b : Byte) : List Instr := List.replicate n (.btMfm b)

/-- `FLUXWAIT t` (R104). -/
def fluxWait (t : Int) : List Instr := [.trEmitFlux t]

end Sys2Proof.Machine
end

