-- ==== Sys2Proof/Tests/Slice0.lean ====
section
/-! SUPPORT. Tests. Expected values are those of 95_test_vectors.md (named by its headings), or of the rule
named; words are written out from 30_encoding.md R92 and R95. -/

namespace Sys2Proof.Tests

open Sys2Proof Sys2Proof.Machine

/-- The state an outcome goes on with. -/
def after (o : Host.Outcome State Fault Refusal) : Option State :=
  match o with
  | .next t => some t
  | .fault _ => none
  | .refused _ => none

/-- The fault an outcome stops with. -/
def faultOf (o : Host.Outcome State Fault Refusal) : Option Fault :=
  match o with
  | .fault f => some f
  | .next _ => none
  | .refused _ => none

/-- The refusal an outcome stops with. -/
def refusalOf (o : Host.Outcome State Fault Refusal) : Option Refusal :=
  match o with
  | .refused r => some r
  | .next _ => none
  | .fault _ => none

/-- The response after an instruction. -/
def answer (i : Instr) (s : State) : Option Response := (after (exec i s)).bind (·.response)

/-- A block with these CRC registers. -/
def withCrcRegs (initial current : Word16) : State := State.reset.withCrc ⟨initial, current⟩

/-- A block with these cells. -/
def withCells (cells : List Bit) (last : Bit) : State := State.reset.withBt ⟨cells, last⟩

/-- A block with this Track. -/
def withTrack (buffer : List Byte) (gate : Gate) (timestep : Nat) : State :=
  State.reset.withTr ⟨buffer, gate, BitVec.ofNat 32 timestep⟩

/-- A writer that has this buffer, at this index. -/
def withProgram (program : List Byte) (ip : Nat) : State :=
  (State.reset.withWriter ⟨some program, ip, .read, 5, []⟩).withInputs [.writerStep]

/-- ASCII "123456789". -/
def digits : List Byte := [0x31#8, 0x32#8, 0x33#8, 0x34#8, 0x35#8, 0x36#8, 0x37#8, 0x38#8, 0x39#8]

/-! ### WellFormed: the check and a term it refuses -/

theorem test_wellFormed_refuses_waitIndex_zero : (Instr.waitIndex 0#6).wellFormed = false := by decide
theorem test_wellFormed_accepts_waitIndex_63 : (Instr.waitIndex 63#6).wellFormed = true := by decide

/-! ### Decoding: a word per constructor, written from R92 and R95 -/

theorem test_decode_crcInit : (decode (.request ⟨0x10#8, [.num 0x1D0F]⟩)).toOption = some (.crcInit 0x1D0F#16) := by decide
theorem test_decode_crcInit_default : (decode (.request ⟨0x10#8, []⟩)).toOption = some (.crcInit 0xFFFF#16) := by decide
theorem test_decode_crcCalc : (decode (.request ⟨0x11#8, [.seq [0x31, 0x32]]⟩)).toOption = some (.crcCalc [0x31#8, 0x32#8]) := by decide
theorem test_decode_crcUpdate : (decode (.request ⟨0x12#8, [.seq [0xA1]]⟩)).toOption = some (.crcUpdate [0xA1#8]) := by decide
theorem test_decode_crcUpdateByte : (decode (.request ⟨0x13#8, [.num 0xA1]⟩)).toOption = some (.crcUpdateByte 0xA1#8) := by decide
theorem test_decode_crcReset : (decode (.request ⟨0x14#8, []⟩)).toOption = some (.crcReset) := by decide
theorem test_decode_crcReseed : (decode (.request ⟨0x15#8, [.num 0x1D0F]⟩)).toOption = some (.crcReseed 0x1D0F#16) := by decide
theorem test_decode_crcRead : (decode (.request ⟨0x16#8, []⟩)).toOption = some (.crcRead) := by decide
theorem test_decode_btReset : (decode (.request ⟨0x20#8, []⟩)).toOption = some (.btReset) := by decide
theorem test_decode_btRaw : (decode (.request ⟨0x21#8, [.num 0x12345678, .num 8]⟩)).toOption = some (.btRaw 0x12345678#32 8) := by decide
theorem test_decode_btRaw_default : (decode (.request ⟨0x21#8, [.num 0x4489]⟩)).toOption = some (.btRaw 0x4489#32 16) := by decide
theorem test_decode_btMfm : (decode (.request ⟨0x22#8, [.num 0xFE]⟩)).toOption = some (.btMfm 0xFE#8) := by decide
theorem test_decode_btFm : (decode (.request ⟨0x23#8, [.num 0xC7]⟩)).toOption = some (.btFm 0xC7#8) := by decide
theorem test_decode_btToTrack : (decode (.request ⟨0x24#8, [.num 400, .num 13]⟩)).toOption = some (.btToTrack 400 13) := by decide
theorem test_decode_btToTrack_default : (decode (.request ⟨0x24#8, [.num 400]⟩)).toOption = some (.btToTrack 400 0) := by decide
theorem test_decode_btRead : (decode (.request ⟨0x25#8, []⟩)).toOption = some (.btRead) := by decide
theorem test_decode_trReset : (decode (.request ⟨0x30#8, []⟩)).toOption = some (.trReset) := by decide
theorem test_decode_trEmitWrgate : (decode (.request ⟨0x31#8, [.gate .write]⟩)).toOption = some (.trEmitWrgate .write) := by decide
theorem test_decode_trEmitFlux : (decode (.request ⟨0x32#8, [.num (-1)]⟩)).toOption = some (.trEmitFlux (-1)) := by decide
theorem test_decode_trEmitWaitIndex : (decode (.request ⟨0x33#8, [.num 200]⟩)).toOption = some (.trEmitWaitIndex 200) := by decide
theorem test_decode_trEmitWaitIndex_default : (decode (.request ⟨0x33#8, []⟩)).toOption = some (.trEmitWaitIndex 1) := by decide
theorem test_decode_trEmitStop : (decode (.request ⟨0x34#8, []⟩)).toOption = some (.trEmitStop) := by decide
theorem test_decode_trGetTime : (decode (.request ⟨0x35#8, []⟩)).toOption = some (.trGetTime) := by decide
theorem test_decode_trGetBuffer : (decode (.request ⟨0x36#8, []⟩)).toOption = some (.trGetBuffer) := by decide
theorem test_decode_trGetGate : (decode (.request ⟨0x37#8, []⟩)).toOption = some (.trGetGate) := by decide
theorem test_decode_waitTimer : (decode (.command 0b10001011#8)).toOption = some (.waitTimer 0b0001011#7) := by decide
theorem test_decode_waitIndex : (decode (.command 0b01111111#8)).toOption = some (.waitIndex 0b111111#6) := by decide
theorem test_decode_stop : (decode (.command 0b00111111#8)).toOption = some (.stop) := by decide
theorem test_decode_waitHstmd : (decode (.command 0b00000011#8)).toOption = some (.waitHstmd) := by decide
theorem test_decode_transition : (decode (.command 0b00000010#8)).toOption = some (.transition) := by decide
theorem test_decode_wrGate_read : (decode (.command 0b00000000#8)).toOption = some (.wrGate .read) := by decide
theorem test_decode_wrGate_write : (decode (.command 0b00000001#8)).toOption = some (.wrGate .write) := by decide

/-- L2-CMD: 04, 3E and 40 are reserved. -/
theorem test_decode_reserved :
    (decode (.command 0x04#8)).toOption = none ∧ (decode (.command 0x3E#8)).toOption = none ∧
      (decode (.command 0x40#8)).toOption = none := by decide

/-- L2-OP: undefined operation codes, whatever the operands. -/
theorem test_decode_undefined_op :
    [0x00#8, 0x17#8, 0x26#8, 0x38#8, 0x40#8, 0xFF#8].all (fun op => (opOf op).isNone) = true := by decide

/-- R94, I16: a 17-bit seed is refused, not truncated. -/
theorem test_interface_refuses_17_bit_seed :
    refusalOf (step (State.reset.withInputs [.request ⟨0x10#8, [.num 0x10000]⟩])) =
      some (.operandRefused 0x10#8) := by decide

/-- L2-ERR: operation code 0x40 answers INVALID_OPERATION(0x40) (R305). -/
theorem test_undefined_op_answers :
    (after (step (State.reset.withInputs [.request ⟨0x40#8, []⟩]))).bind (·.response) =
      some (.error (.invalidOperation 0x40#8)) := by decide

/-- The status codes of R300. -/
theorem test_status_codes :
    [(Response.ok .none).status, (Response.error (.invalidRawWidth 33)).status,
      (Response.error (.invalidWaitIndex 0)).status, (Response.error (.trackTooLong 3)).status,
      (Response.error (.invalidFluxTime (-1))).status, (Response.error (.invalidOperation 0x40#8)).status] =
      [0#8, 1#8, 2#8, 3#8, 4#8, 5#8] := by decide

/-- The opcode table's words reach the decoder and the next step. -/
theorem test_withFetchWord_request :
    (after (step (State.reset.withFetchWord 8 0x34))).map (·.tr.buffer) = some [0x3F#8] := by decide
theorem test_withFetchWord_command :
    (after (step (State.reset.withFetchWord 8 0x8B))).map (·.writer.time) = some 13 := by decide
theorem test_decodeTableWord :
    decodeTableWord 8 0x22 = some (.btMfm 0#8) ∧ decodeTableWord 8 0x8B = some (.waitTimer 11#7) ∧
      decodeTableWord 8 0x122 = none := by decide

/-! ### CRC -/

/-- L2-CRC: INIT reseeds (D30). -/
theorem test_crcInit_reseeds :
    (after (exec (.crcInit 0xFFFF#16) (withCrcRegs 0x1D0F#16 0x3DBA#16))).map (·.crc) = some ⟨0xFFFF#16, 0xFFFF#16⟩ := by decide
/-- L1-A, R131: and CALC writes nothing. -/
theorem test_crcCalc_check_value :
    (after (exec (.crcCalc digits) State.reset)).map (fun t => (t.response, t.crc)) =
      some (some (.ok (.crc 0x29B1#16)), ⟨0xFFFF#16, 0xFFFF#16⟩) := by decide +kernel
/-- L2-CRC: the checked region gives 0 (R133). -/
theorem test_crcCalc_residue :
    answer (.crcCalc (digits ++ [0x29#8, 0xB1#8])) State.reset = some (.ok (.crc 0#16)) := by decide +kernel
/-- L1-P1: from 0x5349. -/
theorem test_crcUpdate_continues :
    (after (exec (.crcUpdate [0x35#8, 0x36#8, 0x37#8, 0x38#8, 0x39#8]) (withCrcRegs 0xFFFF#16 0x5349#16))).map (·.crc) =
      some ⟨0xFFFF#16, 0x29B1#16⟩ := by decide +kernel
/-- L2-CRC: the second of three A1 bytes. -/
theorem test_crcUpdateByte_second_A1 :
    answer (.crcUpdateByte 0xA1#8) (withCrcRegs 0xFFFF#16 0x443B#16) = some (.ok (.crc 0x968B#16)) := by decide
/-- L2-CRC: seed 1D0F, after "A". -/
theorem test_crcReset_keeps_seed :
    (after (exec .crcReset (withCrcRegs 0x1D0F#16 0x9479#16))).map (·.crc) = some ⟨0x1D0F#16, 0x1D0F#16⟩ := by decide
/-- R128. -/
theorem test_crcReseed_sets_both :
    (after (exec (.crcReseed 0x1D0F#16) State.reset)).map (·.crc) = some ⟨0x1D0F#16, 0x1D0F#16⟩ := by decide
/-- R129. -/
theorem test_crcRead_answers_current :
    answer .crcRead (withCrcRegs 0xFFFF#16 0xB915#16) = some (.ok (.crc 0xB915#16)) := by decide
/-- R34: entries 01, 80 and FF as R34 lists them are the remainders of those bytes. -/
theorem test_crcTable_entries :
    crcTableAt 0x01#8 = crcByte 0#16 0x01#8 ∧ crcTableAt 0x80#8 = crcByte 0#16 0x80#8 ∧
      crcTableAt 0xFF#8 = crcByte 0#16 0xFF#8 := by decide

/-! ### BitTrack -/

/-- R150. -/
theorem test_btReset_clears :
    (after (exec .btReset (withCells [true, false] true))).map (·.bt) = some ⟨[], false⟩ := by decide
/-- L2-RAW: FFFF4489, 16. -/
theorem test_btRaw_high_bits_ignored :
    (after (exec (.btRaw 0xFFFF4489#32 16) State.reset)).map (·.bt) =
      some ⟨[false, true, false, false, false, true, false, false, true, false, false, false, true, false, false, true], true⟩ := by decide
/-- L2-RAW: nbits 33. -/
theorem test_btRaw_33_is_an_error :
    (after (exec (.btRaw 1#32 33) State.reset)).map (fun t => (t.bt, t.response)) =
      some (⟨[], false⟩, some (.error (.invalidRawWidth 33))) := by decide
/-- L2-MFM: 4E from ldb 1. -/
theorem test_btMfm_4E_after_one :
    (after (exec (.btMfm 0x4E#8) (withCells [] true))).map (·.bt) =
      some ⟨[false, false, false, true, false, false, true, false, false, true, false, true, false, true, false, false], false⟩ := by decide
/-- L1-B with C1's resolution: 44A9. -/
theorem test_btMfm_A1 :
    (after (exec (.btMfm 0xA1#8) State.reset)).map (·.bt) =
      some ⟨[false, true, false, false, false, true, false, false, true, false, true, false, true, false, false, true], true⟩ := by decide
/-- L2-FM: C7. -/
theorem test_btFm_C7 :
    (after (exec (.btFm 0xC7#8) State.reset)).map (·.bt) =
      some ⟨[true, true, true, true, true, false, true, false, true, false, true, true, true, true, true, true], true⟩ := by decide
/-- R154. -/
theorem test_btRead_answers :
    answer .btRead (withCells [true, false] true) = some (.ok (.cells [true, false] true)) := by decide
/-- L1-F: waits 200, 613, 387. -/
theorem test_btToTrack_scenario_F :
    (after (exec (.btToTrack 400 13)
      (withCells [true, false, false, true, false, true, false, false, false] false))).map
      (fun t => (t.tr.buffer, t.tr.timestep)) =
      some ([0xFF#8, 0xC5#8, 0x02#8, 0xFF#8, 0xFF#8, 0xFF#8, 0xFF#8, 0xDF#8, 0x02#8, 0xFF#8, 0xFF#8, 0xFF#8, 0x02#8], 1203#32) := by decide
/-- L2-LOW: [1,0,1,0,0] at 200, 250 answers INVALID_FLUX_TIME(-50), Track unchanged. -/
theorem test_btToTrack_negative_wait :
    (after (exec (.btToTrack 200 250) (withCells [true, false, true, false, false] false))).map
      (fun t => (t.tr, t.response)) = some (Track.reset, some (.error (.invalidFluxTime (-50)))) := by decide

/-! ### Track -/

/-- R210. -/
theorem test_trReset_clears :
    (after (exec .trReset (withTrack [0x01#8] .write 7))).map (·.tr) = some Track.reset := by decide
/-- L2-TR: WRITE again. -/
theorem test_trEmitWrgate_again :
    (after (exec (.trEmitWrgate .write) (withTrack [0x01#8] .write 1))).map (·.tr) =
      some ⟨[0x01#8, 0x01#8], .write, 2#32⟩ := by decide
/-- L2-TR: the timestep wraps (D11). -/
theorem test_trEmitWrgate_wraps :
    (after (exec (.trEmitWrgate .read) (withTrack [] .read (2 ^ 32 - 1)))).map (·.tr.timestep) = some 0#32 := by decide
/-- L2-FLUX: 259 from the gate READ. -/
theorem test_trEmitFlux_259 :
    (after (exec (.trEmitFlux 259) State.reset)).map (fun t => (t.tr.buffer, t.tr.timestep)) =
      some ([0xFF#8, 0xFF#8, 0x00#8, 0x02#8], 260#32) := by decide
/-- L2-FLUX: the pad is the gate's byte. -/
theorem test_trEmitFlux_130_write :
    (after (exec (.trEmitFlux 130) (withTrack [0x01#8, 0x01#8, 0x02#8] .write 3))).map (·.tr) =
      some ⟨[0x01#8, 0x01#8, 0x02#8, 0xFF#8, 0x01#8, 0x02#8], .write, 134#32⟩ := by decide
/-- L2-WIDX: 200. -/
theorem test_trEmitWaitIndex_200 :
    (after (exec (.trEmitWaitIndex 200) State.reset)).map (fun t => (t.tr.buffer, t.tr.timestep)) =
      some ([0x7F#8, 0x7F#8, 0x7F#8, 0x4B#8], 0#32) := by decide
/-- L2-WIDX: 126. -/
theorem test_trEmitWaitIndex_126 :
    (after (exec (.trEmitWaitIndex 126) State.reset)).map (·.tr.buffer) = some [0x7F#8, 0x7F#8] := by decide
/-- R214. -/
theorem test_trEmitStop_costs_nothing :
    (after (exec .trEmitStop State.reset)).map (·.tr) = some ⟨[0x3F#8], .read, 0#32⟩ := by decide
/-- R215. -/
theorem test_trGetTime_answers :
    answer .trGetTime (withTrack [] .read 401) = some (.ok (.time 401#32)) := by decide
/-- L2-TR: TRACK_CAP 2, buffer [00 02]. -/
theorem test_trGetBuffer_at_cap :
    (after (exec .trGetBuffer { withTrack [0x00#8, 0x02#8] .read 2 with trackCap := 2 })).bind (·.response) =
      some (.ok (.buffer [0x00#8, 0x02#8])) := by decide
/-- L2-TR: TRACK_CAP 2, buffer [01 00 02]. -/
theorem test_trGetBuffer_over_cap :
    (after (exec .trGetBuffer { withTrack [0x01#8, 0x00#8, 0x02#8] .write 3 with trackCap := 2 })).bind (·.response) =
      some (.error (.trackTooLong 3)) := by decide
/-- L2-TR. -/
theorem test_trGetGate_answers :
    answer .trGetGate (withTrack [0x01#8] .write 1) = some (.ok (.gate .write)) := by decide

/-! ### Writer -/

/-- R241: 8B waits 13 clocks. -/
theorem test_waitTimer_13 :
    (after (step (withProgram [0x8B#8] 0))).map (fun t => (t.writer.time, t.writer.ip)) = some (18, 1) := by decide
/-- R242. -/
theorem test_waitIndex_advances :
    (after (step (withProgram [0x42#8] 0))).map (fun t => (t.writer.ip, t.draws)) = some (1, 1) := by decide
/-- L2-CMD: 40 is RESERVED_COMMAND(40) (R247). -/
theorem test_waitIndex_zero_faults :
    faultOf (step (withProgram [0x40#8] 0)) = some (.reservedCommand 0x40#8) := by decide
/-- R243. -/
theorem test_stop_stays :
    (after (step (withProgram [0x3F#8, 0x04#8] 0))).map (·.writer.ip) = some 0 := by decide
/-- R244. -/
theorem test_waitHstmd_advances :
    (after (step (withProgram [0x03#8] 0))).map (fun t => (t.writer.ip, t.draws)) = some (1, 1) := by decide
/-- R245. -/
theorem test_transition_records_then_counts :
    (after (step (withProgram [0x02#8] 0))).map (fun t => (t.writer.events, t.writer.time)) = some ([(5, .read)], 6) := by decide
/-- R246. -/
theorem test_wrGate_sets_gate :
    (after (step (withProgram [0x01#8] 0))).map (fun t => (t.writer.gate, t.writer.time)) = some (.write, 6) := by decide
/-- L2-CMD: 02 alone runs off its end at ip 1 (R249). -/
theorem test_ranOffEnd_faults :
    faultOf (step (withProgram [0x02#8] 1)) = some .ranOffEnd := by decide

/-! ### Host events, macros, syntax -/

/-- R332. -/
theorem test_idle_waits :
    after (step State.reset) = some State.reset := by decide
/-- R330. -/
theorem test_reset_event :
    (after (step ((withTrack [0x01#8] .write 7).withInputs [.reset]))) = some State.reset := by decide
/-- R240. -/
theorem test_handOff_starts_writer :
    (after (step (State.reset.withInputs [.handOff [0x3F#8]]))).map (·.writer) =
      some (Writer.start (some [0x3F#8])) := by decide
/-- R104, R132. -/
theorem test_mfmCrc_high_byte_first :
    mfmCrc 0x29B1#16 = [.crcRead, .btMfm 0x29#8, .btMfm 0xB1#8] := by decide
/-- R103: `BT_RAW 0x4489, 16`, the number in decimal. -/
theorem test_assembly_of_raw :
    assembly (.btRaw 0x4489#32 16) = "BT_RAW 17545, 16" := by decide +kernel

/-! ### Witnesses: for each statement with hypotheses, a state and operands that meet them together -/

/-- Cells 1 0 1 0 0: a +1 window, then a -1 window. -/
def precompCells : List Bit := [true, false, true, false, false]

/-- The writer at the start of a program of `n` steps. -/
def startedOn (program : List Byte) (n : Nat) : State :=
  (State.reset.withWriter (Writer.start (some program))).withInputs (List.replicate n .writerStep)

/-- A Track that holds one flux of one clock. -/
def oneFlux : State := withTrack [0x00#8, 0x02#8] .read 2

theorem witness_CrcResetReturnsToTheSeed :
    after (exec .crcReset (withCrcRegs 0x1D0F#16 0x9479#16)) =
      some { withCrcRegs 0x1D0F#16 0x1D0F#16 with response := some (.ok .none) } := by decide

theorem witness_CurrentIsTheCrcOfTheBytesFed :
    (after (execAll [.crcUpdate [0xA1#8], .btReset, .crcUpdateByte 0xFE#8] State.reset)).isSome = true ∧
      (∀ i ∈ [Instr.crcUpdate [0xA1#8], .btReset, .crcUpdateByte 0xFE#8], restartsCrc i = false) ∧
      State.reset.crc.current = State.reset.crc.initial ∧
      restartsCrc .crcReset = true ∧ (after (exec .crcReset State.reset)).isSome = true := by decide

theorem witness_BtRawAppendsTheField : (0 : Nat) ≤ 32 ∧ (32 : Nat) ≤ 32 ∧ (32 : Nat) < 33 := by decide

theorem witness_MfmRunLengthLaws : State.reset.bt.cells = [] := rfl

theorem witness_BtToTrackEmitsOneFluxPerOneCell :
    waitsByCell 400 400 precompCells = [600, 0] ∧ ∀ t ∈ waitsByCell 400 400 precompCells, 0 ≤ t := by decide

theorem witness_BtToTrackRaisesOnANegativeWait :
    (∃ i, cellMul precompCells i = -1) ∧ 2 * (400 / 2) < 401 ∧ (∃ t ∈ waitsByCell 400 401 precompCells, t < 0) ∧
      (after (exec (.btToTrack 400 401) (withCells precompCells false))).bind (·.response) =
        some (.error (.invalidFluxTime (-1))) :=
  ⟨⟨2, by decide⟩, by decide, ⟨-1, by decide, by decide⟩, by decide⟩

theorem witness_OneTransitionBytePerOneCell :
    (after (exec (.btToTrack 400 13) (withCells precompCells false))).bind (·.response) = some (.ok .none) := by decide

theorem witness_LoweringDropsTheTail :
    (after (exec (.btToTrack 400 13) (withCells precompCells false))).isSome = true ∧
      (after (exec (.btToTrack 400 401) (withCells precompCells false))).isSome = true ∧
      true ∉ (withCells [false, false, false] false).bt.cells := by decide

theorem witness_OddAndTinyCellTimes : (0 : Nat) ≤ 1 ∧ (1 : Nat) ≤ 1 := by decide

theorem witness_TrEmitFluxClosedForm : (-1 : Int) < 0 := by decide

theorem witness_TrEmitWaitIndexSplitsTheCount : (1 : Nat) ≤ 1 ∧ (1 : Nat) ≤ 63 ∧ (0 : Int) < 1 ∧ (-5 : Int) < 1 := by
  decide

theorem witness_TrGetBufferChecksTheCap :
    ({ oneFlux with trackCap := 2 } : State).tr.buffer.length ≤ ({ oneFlux with trackCap := 2 } : State).trackCap ∧
      ({ oneFlux with trackCap := 1 } : State).trackCap <
        ({ oneFlux with trackCap := 1 } : State).tr.buffer.length := by decide

theorem witness_WaitIndexTakesADraw : (1#6 : BitVec 6) ≠ 0#6 ∧ (63#6 : BitVec 6) ≠ 0#6 := by decide

theorem witness_StopHaltsTheWriter :
    (startedOn [0x3F#8, 0x04#8] 2).writer.program = some [0x3F#8, 0x04#8] ∧
      ([0x3F#8, 0x04#8] : List Byte)[(startedOn [0x3F#8, 0x04#8] 2).writer.ip]? = some 0x3F#8 ∧
      (startedOn [0x3F#8, 0x04#8] 2).inputs = List.replicate 2 .writerStep := by decide

theorem witness_DecodeOfEncodeIsTheInstruction :
    (Instr.waitIndex 1#6).wellFormed = true ∧ (Instr.btRaw 0x4489#32 16).wellFormed = true := by decide

theorem witness_CommandDecoderByRanges :
    0x80 ≤ (0x80#8).toNat ∧ 0x80 ≤ (0xFF#8).toNat ∧ (0x41 ≤ (0x41#8).toNat ∧ (0x41#8).toNat ≤ 0x7F) ∧
      (0x41 ≤ (0x7F#8).toNat ∧ (0x7F#8).toNat ≤ 0x7F) ∧ (0x3F#8).toNat = 0x3F ∧ (0x03#8).toNat = 0x03 ∧
      (0x02#8).toNat = 0x02 ∧ (0x01#8).toNat = 0x01 ∧ (0x00#8).toNat = 0x00 ∧ (0x40#8).toNat = 0x40 ∧
      (0x04 ≤ (0x04#8).toNat ∧ (0x3E#8).toNat ≤ 0x3E) ∧
      (decode (.command 0x3F#8)).toOption = some .stop := by decide

theorem witness_UndefinedCodesAnswerInvalidOperation :
    (0x0F#8).toNat ≤ 0x0F ∧ (0x17 ≤ (0x17#8).toNat ∧ (0x1F#8).toNat ≤ 0x1F) ∧
      (0x26 ≤ (0x26#8).toNat ∧ (0x2F#8).toNat ≤ 0x2F) ∧ 0x38 ≤ (0x38#8).toNat ∧
      (State.reset.withInputs [.request ⟨0x38#8, []⟩]).inputs = [.request ⟨0x38#8, []⟩] := by decide

theorem witness_OperandsThatDoNotFitAreRefused :
    (0x10000 : Int) ≤ 0x10000 ∧ (0x100 : Int) ≤ 0x100 ∧ (∃ e ∈ ([0, 0x100] : List Int), e < 0 ∨ 0x100 ≤ e) ∧
      (0x100000000 : Int) ≤ 0x100000000 ∧ (-1 : Int) < 0 := by decide

theorem witness_StepRunsTheDecodedInstruction :
    (State.reset.withInputs [.request ⟨0x22#8, [.num 0xFE]⟩]).inputs = [.request ⟨0x22#8, [.num 0xFE]⟩] ∧
      (decode (.request ⟨0x22#8, [.num 0xFE]⟩)).toOption = some (.btMfm 0xFE#8) ∧
      (startedOn [0x8B#8] 1).inputs = [.writerStep] ∧ (startedOn [0x8B#8] 1).writer.program = some [0x8B#8] ∧
      ([0x8B#8] : List Byte)[(startedOn [0x8B#8] 1).writer.ip]? = some 0x8B#8 ∧
      (decode (.command 0x8B#8)).toOption = some (.waitTimer 11#7) := by decide

theorem witness_WriterFaultsAtReservedBytesAndPastTheEnd :
    (startedOn [0x04#8] 1).inputs = [.writerStep] ∧ (startedOn [0x04#8] 1).writer.program = some [0x04#8] ∧
      ([0x04#8] : List Byte)[(startedOn [0x04#8] 1).writer.ip]? = some 0x04#8 ∧
      (withProgram [0x02#8] 1).writer.program = some [0x02#8] ∧
      ([0x02#8] : List Byte).length ≤ (withProgram [0x02#8] 1).writer.ip := by decide

theorem witness_BlockResetEqualsTheThreeResets :
    ((withTrack [0x01#8] .write 7).withInputs [.reset]).inputs = [.reset] := by decide

theorem witness_HandOffStartsTheWriterAndIdleWaits :
    (State.reset.withInputs [.handOff [0x3F#8]]).inputs = [.handOff [0x3F#8]] ∧ State.reset.inputs = [] ∧
      (State.reset.withInputs [.writerStep]).inputs = [.writerStep] ∧
      (State.reset.withInputs [.writerStep]).writer.program = none := by decide

theorem witness_ErrorsExactlyWhenTheRulesSay :
    agentOf (.btRaw 1#32 33) ≠ .writer ∧
      after (exec (.btRaw 1#32 33) State.reset) =
        some { State.reset with response := some (.error (.invalidRawWidth 33)) } := by decide

theorem witness_FailedOperationsWriteNothing : agentOf (.trEmitFlux (-1)) ≠ .writer := by decide

theorem witness_ReadsWriteNothingAndResetsRepeat :
    (after (exec .trGetTime oneFlux)).isSome = true ∧ (after (exec .trReset oneFlux)).isSome = true := by decide

theorem witness_UnitsChangeOnlyThemselves :
    (after (exec (.crcUpdateByte 0xA1#8) oneFlux)).isSome = true ∧ agentOf (.crcUpdateByte 0xA1#8) = .crcUnit ∧
      (after (exec .transition oneFlux)).isSome = true ∧ agentOf .transition = .writer := by decide

theorem witness_UnitsLearnNothingOfOneAnother :
    (after (exec (.crcUpdateByte 0xA1#8) oneFlux)).isSome = true ∧ State.reset.crc = oneFlux.crc ∧
      (after (exec (.btMfm 0xA1#8) oneFlux)).isSome = true ∧ State.reset.bt = oneFlux.bt ∧
      (after (exec (.trEmitFlux 1) oneFlux)).isSome = true ∧
      (withCrcRegs 0#16 0#16).withTr oneFlux.tr ≠ oneFlux ∧ ((withCrcRegs 0#16 0#16).withTr oneFlux.tr).tr = oneFlux.tr ∧
      (after (exec (.btToTrack 400 13) oneFlux)).isSome = true ∧
      (after (exec .transition oneFlux)).isSome = true ∧ State.reset.writer = oneFlux.writer ∧
      State.reset.draws = oneFlux.draws := by decide

theorem witness_SequencesOnlyGrow :
    (after (exec (.btMfm 0xA1#8) oneFlux)).isSome = true ∧ Instr.btMfm 0xA1#8 ≠ .btReset ∧
      Instr.btMfm 0xA1#8 ≠ .trReset := by decide

theorem witness_EveryStepKeepsTheTimestepAccounted :
    (after (step (oneFlux.withInputs [.request ⟨0x32#8, [.num 400]⟩]))).isSome = true ∧
      timestepAccounted (oneFlux.withInputs [.request ⟨0x32#8, [.num 400]⟩]) :=
  ⟨by decide, by show (2#32 : Word32) = _; decide⟩

theorem witness_EveryStepKeepsTheBufferEmittable :
    (after (step (oneFlux.withInputs [.request ⟨0x34#8, []⟩]))).isSome = true ∧
      bufferEmittable (oneFlux.withInputs [.request ⟨0x34#8, []⟩]) ∧ emittable 0x41#8 = true := by
  refine ⟨by decide, ?_, by decide⟩
  show ∀ b ∈ ([0x00#8, 0x02#8] : List Byte), emittable b = true
  decide

theorem witness_EveryStepKeepsTheWriterInOrder :
    (after (step (withProgram [0x02#8] 0))).isSome = true ∧ writerInBounds (withProgram [0x02#8] 0) ∧
      eventsOrdered (withProgram [0x02#8] 0) := by
  refine ⟨by decide, ?_, ⟨fun e he => (by cases he), List.Pairwise.nil⟩⟩
  intro p hp
  cases hp
  decide

theorem witness_WriterTimeIsTimestepPlusDraws :
    (startedOn [0x41#8, 0x80#8, 0x02#8, 0x3F#8] 3).writer = Writer.start (some ([0x41#8, 0x80#8, 0x02#8] ++ 0x3F#8 :: [])) ∧
      (∀ b ∈ ([0x41#8, 0x80#8, 0x02#8] : List Byte), emittable b = true ∧ b ≠ 0x3F#8) ∧
      (startedOn [0x41#8, 0x80#8, 0x02#8, 0x3F#8] 3).inputs = List.replicate 3 .writerStep ++ [] ∧
      (withTrack [0x02#8, 0x3F#8] .read 1).tr.buffer = [0x02#8] ++ [0x3F#8] ∧
      timestepAccounted (withTrack [0x02#8, 0x3F#8] .read 1) :=
  ⟨by decide, by decide, by decide, by decide, by show (1#32 : Word32) = _; decide⟩

theorem witness_WellFormedProgramsAreThoseThatNeverFault :
    (startedOn [0x02#8, 0x3F#8] 5).writer = Writer.start (some [0x02#8, 0x3F#8]) ∧
      wellFormedProgram [0x02#8, 0x3F#8] = true ∧ wellFormedProgram [0x41#8, 0x04#8] = false ∧
      ([0x41#8, 0x04#8] : List Byte).length < 3 ∧ wellFormedProgram [] = false := by decide

end Sys2Proof.Tests
end

section
/-! What a step does with a coded form that decodes, for both agents. -/

namespace Sys2Proof.Machine

/-- R240: the writer fetches `P[ip]`. -/
theorem fetchCommand_of_getElem? (w : Writer) (p : List Byte) (b : Byte)
    (hp : w.program = some p) (hb : p[w.ip]? = some b) : fetchCommand w = .code (.command b) := by
  simp only [fetchCommand, hp, hb]

theorem step_of_decode_ok (s : State) (c : Code) (i : Instr)
    (hf : fetch s = .code c) (hd : decode c = .ok i) : step s = exec i (takeInput s) := by
  simp only [step, hf, hd]

/-- Settles O45: for either agent the fetch finds the coded form and the step takes the one input off. -/
theorem stepRunsTheDecodedInstruction : Obligations.StepRunsTheDecodedInstruction := by
  constructor
  · intro r i rest s hin hd
    rw [step_of_decode_ok s _ i (fetch_of_request s r rest hin) hd, takeInput_cons s _ rest hin]
  · intro p b i rest s hin hp hb hd
    have hf : fetch s = .code (.command b) :=
      (fetch_of_writerStep s rest hin).trans (fetchCommand_of_getElem? s.writer p b hp hb)
    rw [step_of_decode_ok s _ i hf hd, takeInput_cons s _ rest hin]

end Sys2Proof.Machine
end

section
/-! What the instructions with two outcomes do, and the frame of every instruction: one that goes on has changed
its own unit and its answer only (R73, R301). -/

namespace Sys2Proof.Machine

theorem execBtRaw_next_cases (pattern : Word32) (nbits : Nat) (s t : State)
    (h : execBtRaw pattern nbits s = .next t) :
    (Config.rawMaxBits < nbits ∧ t = s.withResponse (.error (.invalidRawWidth nbits))) ∨
    (nbits ≤ Config.rawMaxBits ∧ t = (s.withBt (rawPattern pattern nbits s.bt)).withResponse (.ok .none)) := by
  unfold execBtRaw at h
  split at h
  case isTrue hbad => exact .inl ⟨hbad, (raise_eq_next_iff _ _ _).mp h⟩
  case isFalse hok => exact .inr ⟨Nat.le_of_not_lt hok, (finish_eq_next_iff _ _ _).mp h⟩

theorem execBtToTrack_next_cases (cellTime precomp : Nat) (s t : State)
    (h : execBtToTrack cellTime precomp s = .next t) :
    (∃ time, (lowerWaits cellTime precomp s.bt.cells).find? (fun w => decide (w < 0)) = some time ∧
      t = s.withResponse (.error (.invalidFluxTime time))) ∨
    ((∀ w ∈ lowerWaits cellTime precomp s.bt.cells, 0 ≤ w) ∧
      t = (s.withTr (emitWaits (lowerWaits cellTime precomp s.bt.cells) s.tr)).withResponse (.ok .none)) := by
  obtain ⟨time, htime, hraise⟩ | ⟨hwaits, hemit⟩ := execBtToTrack_cases cellTime precomp s
  · rw [hraise] at h
    exact .inl ⟨time, htime, (raise_eq_next_iff _ _ _).mp h⟩
  · rw [hemit] at h
    exact .inr ⟨hwaits, (finish_eq_next_iff _ _ _).mp h⟩

theorem execTrEmitFlux_next_cases (time : Int) (s t : State) (h : execTrEmitFlux time s = .next t) :
    (time < 0 ∧ t = s.withResponse (.error (.invalidFluxTime time))) ∨
    (0 ≤ time ∧ t = (s.withTr (emitFlux time.toNat s.tr)).withResponse (.ok .none)) := by
  unfold execTrEmitFlux at h
  split at h
  case isTrue hbad => exact .inl ⟨hbad, (raise_eq_next_iff _ _ _).mp h⟩
  case isFalse hok => exact .inr ⟨Int.not_lt.mp hok, (finish_eq_next_iff _ _ _).mp h⟩

theorem execTrEmitWaitIndex_next_cases (n : Int) (s t : State) (h : execTrEmitWaitIndex n s = .next t) :
    (n < 1 ∧ t = s.withResponse (.error (.invalidWaitIndex n))) ∨
    (1 ≤ n ∧ t = (s.withTr (s.tr.emit (waitIndexBytes n.toNat n.toNat) 0)).withResponse (.ok .none)) := by
  unfold execTrEmitWaitIndex at h
  split at h
  case isTrue hbad => exact .inl ⟨hbad, (raise_eq_next_iff _ _ _).mp h⟩
  case isFalse hok => exact .inr ⟨Int.not_lt.mp hok, (finish_eq_next_iff _ _ _).mp h⟩

theorem execTrGetBuffer_next (s t : State) (h : execTrGetBuffer s = .next t) :
    ∃ r, t = s.withResponse r := by
  unfold execTrGetBuffer at h
  split at h
  · exact ⟨_, (raise_eq_next_iff _ _ _).mp h⟩
  · exact ⟨_, (finish_eq_next_iff _ _ _).mp h⟩

theorem execWaitIndex_next (k : BitVec 6) (s t : State) (h : execWaitIndex k s = .next t) :
    t = (s.withWriter (s.writer.advance (Config.indexWaitDuration s.draws))).countDraw := by
  unfold execWaitIndex at h
  split at h
  · cases h
  · cases h; rfl

/-- `s` with what an instruction of that unit may write taken from `t` (R73): the unit's record and the answer,
or the writer and the draw counter. -/
def State.withUnitOf (s : State) (unit : Agent) (t : State) : State :=
  match unit with
  | .crcUnit => { s with crc := t.crc, response := t.response }
  | .bitTrack => { s with bt := t.bt, response := t.response }
  | .track | .lowering => { s with tr := t.tr, response := t.response }
  | .writer => { s with writer := t.writer, draws := t.draws }

theorem exec_eq_withUnitOf (i : Instr) (s t : State) (h : exec i s = .next t) :
    t = s.withUnitOf (agentOf i) t := by
  cases i with
  | btRaw pattern nbits => obtain ⟨-, rfl⟩ | ⟨-, rfl⟩ := execBtRaw_next_cases pattern nbits s t h <;> rfl
  | btToTrack cellTime precomp =>
    obtain ⟨_, -, rfl⟩ | ⟨-, rfl⟩ := execBtToTrack_next_cases cellTime precomp s t h <;> rfl
  | trEmitFlux time => obtain ⟨-, rfl⟩ | ⟨-, rfl⟩ := execTrEmitFlux_next_cases time s t h <;> rfl
  | trEmitWaitIndex n => obtain ⟨-, rfl⟩ | ⟨-, rfl⟩ := execTrEmitWaitIndex_next_cases n s t h <;> rfl
  | trGetBuffer => obtain ⟨r, rfl⟩ := execTrGetBuffer_next s t h; rfl
  | waitIndex k => obtain rfl := execWaitIndex_next k s t h; rfl
  | crcInit | crcCalc | crcUpdate | crcUpdateByte | crcReset | crcReseed | crcRead
  | btReset | btMfm | btFm | btRead
  | trReset | trEmitWrgate | trEmitStop | trGetTime | trGetGate
  | waitTimer | stop | waitHstmd | transition | wrGate => cases h; rfl

theorem exec_keeps_crc (i : Instr) (s t : State) (h : exec i s = .next t) (hi : agentOf i ≠ .crcUnit) :
    t.crc = s.crc := by
  rw [exec_eq_withUnitOf i s t h]
  cases hu : agentOf i with
  | crcUnit => exact absurd hu hi
  | bitTrack | track | lowering | writer => rfl

theorem exec_keeps_bt (i : Instr) (s t : State) (h : exec i s = .next t) (hi : agentOf i ≠ .bitTrack) :
    t.bt = s.bt := by
  rw [exec_eq_withUnitOf i s t h]
  cases hu : agentOf i with
  | bitTrack => exact absurd hu hi
  | crcUnit | track | lowering | writer => rfl

theorem exec_keeps_tr (i : Instr) (s t : State) (h : exec i s = .next t)
    (htrack : agentOf i ≠ .track) (hlower : agentOf i ≠ .lowering) : t.tr = s.tr := by
  rw [exec_eq_withUnitOf i s t h]
  cases hu : agentOf i with
  | track => exact absurd hu htrack
  | lowering => exact absurd hu hlower
  | crcUnit | bitTrack | writer => rfl

end Sys2Proof.Machine
end

section
/-! R33: the remainder follows the bytes fed, over any sequence of instructions. -/

namespace Sys2Proof.Machine

theorem crcSeq_append (c : Word16) (x y : List Byte) : crcSeq c (x ++ y) = crcSeq (crcSeq c x) y := by
  induction x generalizing c with
  | nil => rfl
  | cons b x ih => exact ih (crcByte c b)

theorem execAll_cons_next (i : Instr) (is : List Instr) (s t : State) (h : execAll (i :: is) s = .next t) :
    ∃ u, exec i s = .next u ∧ execAll is u = .next t := by
  rw [execAll] at h
  cases hi : exec i s with
  | next u => exact ⟨u, rfl, by simpa only [hi] using h⟩
  | fault r => simp only [hi, reduceCtorEq] at h
  | refused r => simp only [hi, reduceCtorEq] at h

/-- Every instruction but a restart folds the bytes it feeds into `current` and keeps `initial`. -/
theorem exec_crc_of_not_restarts (i : Instr) (s t : State) (h : exec i s = .next t)
    (hi : restartsCrc i = false) : t.crc = ⟨s.crc.initial, crcSeq s.crc.current (fedBytes i)⟩ := by
  cases i with
  | crcInit | crcReset | crcReseed => cases hi
  | crcCalc | crcUpdate | crcUpdateByte | crcRead => cases h; rfl
  | btReset | btRaw | btMfm | btFm | btToTrack | btRead
  | trReset | trEmitWrgate | trEmitFlux | trEmitWaitIndex | trEmitStop | trGetTime | trGetBuffer | trGetGate
  | waitTimer | waitIndex | stop | waitHstmd | transition | wrGate => exact exec_keeps_crc _ s t h nofun

theorem exec_crc_of_restarts (i : Instr) (s t : State) (h : exec i s = .next t)
    (hi : restartsCrc i = true) : t.crc.current = t.crc.initial := by
  cases i with
  | crcInit | crcReset | crcReseed => cases h; rfl
  | _ => cases hi

theorem execAll_crc_of_not_restarts (is : List Instr) (s t : State) (h : execAll is s = .next t)
    (his : ∀ i ∈ is, restartsCrc i = false) :
    t.crc = ⟨s.crc.initial, crcSeq s.crc.current (is.flatMap fedBytes)⟩ := by
  induction is generalizing s with
  | nil => cases h; rfl
  | cons i is ih =>
    obtain ⟨u, hu, hrest⟩ := execAll_cons_next i is s t h
    obtain ⟨hi, his⟩ := List.forall_mem_cons.mp his
    rw [ih u hrest his, exec_crc_of_not_restarts i s u hu hi, List.flatMap_cons, crcSeq_append]

/-- Settles O11: by induction on the instructions, each of which folds in the bytes it feeds. -/
theorem currentIsTheCrcOfTheBytesFed : Obligations.CurrentIsTheCrcOfTheBytesFed := by
  refine ⟨fun is s t h his hstart => ?_, fun i s t hi h => exec_crc_of_restarts i s t h hi⟩
  have hcrc := execAll_crc_of_not_restarts is s t h his
  exact ⟨by rw [hcrc], by rw [hcrc, hstart]⟩

end Sys2Proof.Machine
end

section
/-! What the accounted clocks of the emitted bytes are (R39, R212 to R214, R241, R242). -/

namespace Sys2Proof.Machine

theorem accountedClocks_append (x y : List Byte) :
    accountedClocks (x ++ y) = accountedClocks x + accountedClocks y := by
  induction x with
  | nil => simp [accountedClocks]
  | cons b x ih => simp only [List.cons_append, accountedClocks, ih, Nat.add_assoc]

theorem accountedClocks_singleton (b : Byte) : accountedClocks [b] = byteClocks b := rfl

@[simp] theorem byteClocks_transitionByte : byteClocks transitionByte = 1 := by decide

@[simp] theorem byteClocks_stopByte : byteClocks stopByte = 0 := by decide

@[simp] theorem byteClocks_gateByte (g : Gate) : byteClocks (gateByte g) = 1 := by
  cases g <;> decide

theorem extractLsb'_zero_ofNat {m n : Nat} (k : Nat) (h : m ≤ n) :
    (BitVec.ofNat n k).extractLsb' 0 m = BitVec.ofNat m k := by
  rw [← BitVec.setWidth_eq_extractLsb' h, BitVec.setWidth_ofNat_of_le h]

/-- R96, R100: bit 7 marks a wait-timer byte, the other seven bits are the wait less 2. -/
theorem decodeCommand_waitTimerByte (t : Nat) :
    decodeCommand (waitTimerByte t) = .ok (.waitTimer (BitVec.ofNat 7 (t - 2))) := by
  have hmark : (waitTimerByte t).getLsbD 7 = true := by simp [waitTimerByte]
  have hfield : (waitTimerByte t).extractLsb' 0 7 = BitVec.ofNat 7 (t - 2) := by
    rw [waitTimerByte, BitVec.extractLsb'_or, extractLsb'_zero_ofNat (t - 2) (by decide)]
    exact BitVec.zero_or
  simp only [decodeCommand, hmark, hfield, if_true]

/-- R97: the count does not reach bits 7 and 6. -/
theorem waitIndexByte_mark (k : Nat) (h63 : k ≤ 63) : (waitIndexByte k).extractLsb' 6 2 = 0b01#2 := by
  have hcount : (BitVec.ofNat 8 k).extractLsb' 6 2 = 0#2 := by
    apply BitVec.eq_of_toNat_eq
    simp only [BitVec.extractLsb'_toNat, BitVec.toNat_ofNat, Nat.shiftRight_eq_div_pow]
    omega
  rw [waitIndexByte, BitVec.extractLsb'_or, hcount]
  rfl

theorem waitIndexByte_count (k : Nat) : (waitIndexByte k).extractLsb' 0 6 = BitVec.ofNat 6 k := by
  rw [waitIndexByte, BitVec.extractLsb'_or, extractLsb'_zero_ofNat k (by decide)]
  exact BitVec.zero_or

/-- R97, R100: bits 7 and 6 mark a wait-index byte, the other six bits are the count. -/
theorem decodeCommand_waitIndexByte (k : Nat) (h1 : 1 ≤ k) (h63 : k ≤ 63) :
    decodeCommand (waitIndexByte k) = .ok (.waitIndex (BitVec.ofNat 6 k)) := by
  have hclear : (waitIndexByte k).getLsbD 7 = false := by
    have hbit : (waitIndexByte k).getLsbD 7 = ((waitIndexByte k).extractLsb' 6 2).getLsbD 1 := by simp
    rw [hbit, waitIndexByte_mark k h63]
    rfl
  have hpos : BitVec.ofNat 6 k ≠ 0#6 := by
    intro hzero
    have hnat : k % 2 ^ 6 = 0 := congrArg BitVec.toNat hzero
    omega
  simp only [decodeCommand, hclear, waitIndexByte_mark k h63, waitIndexByte_count,
    beq_eq_false_iff_ne.mpr hpos, beq_self_eq_true, if_true, if_false, Bool.false_eq_true]

theorem byteClocks_waitTimerByte (t : Nat) (h2 : 2 ≤ t) (hmax : t ≤ Config.timerWaitMax) :
    byteClocks (waitTimerByte t) = t := by
  have hfit : t - 2 < 2 ^ 7 := by simp only [Config.timerWaitMax] at hmax; omega
  simp only [byteClocks, decodeCommand_waitTimerByte, BitVec.toNat_ofNat, Nat.mod_eq_of_lt hfit]
  omega

theorem byteClocks_waitIndexByte (k : Nat) (h1 : 1 ≤ k) (h63 : k ≤ 63) : byteClocks (waitIndexByte k) = 0 := by
  simp only [byteClocks, decodeCommand_waitIndexByte k h1 h63]

/-- With fuel enough, the wait loop's bytes cost exactly the time (R219). -/
theorem accountedClocks_waitBytes (gate : Gate) (fuel t : Nat) (h : t ≤ fuel) :
    accountedClocks (waitBytes gate fuel t) = t := by
  induction fuel generalizing t with
  | zero => simp only [waitBytes, accountedClocks]; omega
  | succ fuel ih =>
    rw [waitBytes]
    split
    case isTrue hlong =>
      have hmax : byteClocks (waitTimerByte Config.timerWaitMax) = Config.timerWaitMax :=
        byteClocks_waitTimerByte _ (by decide) le_rfl
      have hrest : t - Config.timerWaitMax ≤ fuel := by simp only [Config.timerWaitMax]; omega
      rw [accountedClocks, hmax, ih _ hrest]
      omega
    case isFalse hshort =>
      split
      case isTrue h2 => exact byteClocks_waitTimerByte t h2 (by omega)
      case isFalse h2 =>
        split
        case isTrue h1 => rw [accountedClocks_singleton, byteClocks_gateByte, h1]
        case isFalse h1 => rw [accountedClocks]; omega

theorem accountedClocks_fluxBytes (gate : Gate) (time : Nat) :
    accountedClocks (fluxBytes gate time) = time + 1 := by
  rw [fluxBytes, accountedClocks_append, accountedClocks_waitBytes gate time time le_rfl,
    accountedClocks_singleton, byteClocks_transitionByte]

theorem accountedClocks_waitIndexBytes (fuel n : Nat) : accountedClocks (waitIndexBytes fuel n) = 0 := by
  induction fuel generalizing n with
  | zero => rfl
  | succ fuel ih =>
    rw [waitIndexBytes]
    split
    case isTrue => rfl
    case isFalse hn =>
      have hhead : byteClocks (waitIndexByte (min n Config.indexWaitMax)) = 0 :=
        byteClocks_waitIndexByte _ (by simp only [Config.indexWaitMax]; omega)
          (by simp only [Config.indexWaitMax]; omega)
      rw [accountedClocks, hhead, ih]

end Sys2Proof.Machine
end

section
/-! What an instruction can do to the Track and to the BitTrack: the sequences grow at their end and the clocks of
the new bytes are accounted (R36 to R40, R61 to R63). -/

namespace Sys2Proof.Machine

/-- `tr'` is `tr` with bytes appended and their accounted clocks added to the timestep (R40). -/
def Track.Grows (tr tr' : Track) : Prop :=
  ∃ bytes, tr'.buffer = tr.buffer ++ bytes ∧
    tr'.timestep = tr.timestep + BitVec.ofNat 32 (accountedClocks bytes)

theorem Track.Grows.refl (tr : Track) : tr.Grows tr :=
  ⟨[], (List.append_nil _).symm, (BitVec.add_zero _).symm⟩

theorem Track.Grows.trans {a b c : Track} (hab : a.Grows b) (hbc : b.Grows c) : a.Grows c := by
  obtain ⟨x, hbufx, htimex⟩ := hab
  obtain ⟨y, hbufy, htimey⟩ := hbc
  refine ⟨x ++ y, by rw [hbufy, hbufx, List.append_assoc], ?_⟩
  rw [htimey, htimex, accountedClocks_append, BitVec.ofNat_add, BitVec.add_assoc]

theorem Track.grows_emit (tr : Track) (bytes : List Byte) (clocks : Nat)
    (h : accountedClocks bytes = clocks) : tr.Grows (tr.emit bytes clocks) :=
  ⟨bytes, rfl, by rw [h]; rfl⟩

theorem Track.grows_emitFlux (tr : Track) (time : Nat) : tr.Grows (emitFlux time tr) :=
  tr.grows_emit _ _ (accountedClocks_fluxBytes tr.gate time)

theorem Track.grows_emitWaits (waits : List Int) (tr : Track) : tr.Grows (emitWaits waits tr) := by
  induction waits generalizing tr with
  | nil => exact .refl tr
  | cons wait waits ih => exact (tr.grows_emitFlux wait.toNat).trans (ih _)

/-- What an instruction that goes on can have done to the Track, by instruction. -/
inductive TrackEffect (tr : Track) : Instr → Track → Prop
  /-- It reads, raises, or belongs to another unit; TR_RESET does none of these. -/
  | keep (i : Instr) (hi : i ≠ .trReset) : TrackEffect tr i tr
  /-- R210. -/
  | reset : TrackEffect tr .trReset Track.reset
  /-- R211. -/
  | gate (g : Gate) : TrackEffect tr (.trEmitWrgate g) { tr.emit [gateByte g] 1 with gate := g }
  /-- R212. -/
  | flux (time : Int) (htime : 0 ≤ time) : TrackEffect tr (.trEmitFlux time) (emitFlux time.toNat tr)
  /-- R213. -/
  | waitIndex (n : Int) (hn : 1 ≤ n) :
      TrackEffect tr (.trEmitWaitIndex n) (tr.emit (waitIndexBytes n.toNat n.toNat) 0)
  /-- R214. -/
  | stop : TrackEffect tr .trEmitStop (tr.emit [stopByte] 0)
  /-- R180. -/
  | lower (cellTime precomp : Nat) (waits : List Int) (hwaits : ∀ w ∈ waits, 0 ≤ w) :
      TrackEffect tr (.btToTrack cellTime precomp) (emitWaits waits tr)

theorem exec_trackEffect (i : Instr) (s t : State) (h : exec i s = .next t) : TrackEffect s.tr i t.tr := by
  cases i with
  | trReset => cases h; exact .reset
  | trEmitWrgate g => cases h; exact .gate g
  | trEmitStop => cases h; exact .stop
  | trEmitFlux time =>
    obtain ⟨-, rfl⟩ | ⟨htime, rfl⟩ := execTrEmitFlux_next_cases time s t h
    · exact .keep _ nofun
    · exact .flux time htime
  | trEmitWaitIndex n =>
    obtain ⟨-, rfl⟩ | ⟨hn, rfl⟩ := execTrEmitWaitIndex_next_cases n s t h
    · exact .keep _ nofun
    · exact .waitIndex n hn
  | btToTrack cellTime precomp =>
    obtain ⟨_, -, rfl⟩ | ⟨hwaits, rfl⟩ := execBtToTrack_next_cases cellTime precomp s t h
    · exact .keep _ nofun
    · exact .lower cellTime precomp _ hwaits
  | trGetBuffer => obtain ⟨_, rfl⟩ := execTrGetBuffer_next s t h; exact .keep _ nofun
  | trGetTime | trGetGate => cases h; exact .keep _ nofun
  | crcInit | crcCalc | crcUpdate | crcUpdateByte | crcReset | crcReseed | crcRead
  | btReset | btRaw | btMfm | btFm | btRead
  | waitTimer | waitIndex | stop | waitHstmd | transition | wrGate =>
    rw [exec_keeps_tr _ s t h nofun nofun]; exact .keep _ nofun

theorem TrackEffect.grows {tr tr' : Track} {i : Instr} (h : TrackEffect tr i tr') (hi : i ≠ .trReset) :
    tr.Grows tr' := by
  cases h with
  | keep => exact .refl tr
  | reset => exact absurd rfl hi
  | gate g => exact tr.grows_emit [gateByte g] 1 (byteClocks_gateByte g)
  | flux time => exact tr.grows_emitFlux time.toNat
  | waitIndex n => exact tr.grows_emit _ 0 (accountedClocks_waitIndexBytes n.toNat n.toNat)
  | stop => exact tr.grows_emit [stopByte] 0 byteClocks_stopByte
  | lower _ _ waits => exact tr.grows_emitWaits waits

/-- R38: who may change the gate. -/
theorem TrackEffect.keeps_gate {tr tr' : Track} {i : Instr} (h : TrackEffect tr i tr')
    (hreset : i ≠ .trReset) (hgate : ∀ g, i ≠ .trEmitWrgate g) : tr'.gate = tr.gate := by
  cases h with
  | reset => exact absurd rfl hreset
  | gate g => exact absurd rfl (hgate g)
  | lower _ _ waits => exact emitWaits_gate waits tr
  | keep | flux | waitIndex | stop => rfl

theorem TrackEffect.eq_reset {tr tr' : Track} (h : TrackEffect tr .trReset tr') : tr' = Track.reset := by
  cases h with
  | keep _ hi => exact absurd rfl hi
  | reset => rfl

/-- Encoders that append cells bit by bit append cells as a whole (R152, R153). -/
theorem foldl_cells_append (encodeBit : BitTrack → Bit → BitTrack)
    (hbit : ∀ bt d, ∃ cells, (encodeBit bt d).cells = bt.cells ++ cells) (bits : List Bit) (bt : BitTrack) :
    ∃ cells, (bits.foldl encodeBit bt).cells = bt.cells ++ cells := by
  induction bits generalizing bt with
  | nil => exact ⟨[], (List.append_nil _).symm⟩
  | cons d bits ih =>
    obtain ⟨first, hfirst⟩ := hbit bt d
    obtain ⟨rest, hrest⟩ := ih (encodeBit bt d)
    exact ⟨first ++ rest, by rw [List.foldl_cons, hrest, hfirst, List.append_assoc]⟩

theorem mfmByte_cells_append (b : Byte) (bt : BitTrack) :
    ∃ cells, (mfmByte b bt).cells = bt.cells ++ cells :=
  foldl_cells_append mfmBit (fun bt d => ⟨_, mfmBit_cells bt d⟩) (byteBits b) bt

theorem fmByte_cells_append (b : Byte) (bt : BitTrack) :
    ∃ cells, (fmByte b bt).cells = bt.cells ++ cells :=
  foldl_cells_append fmBit (fun bt d => ⟨_, fmBit_cells bt d⟩) (byteBits b) bt

theorem exec_cells_append (i : Instr) (s t : State) (h : exec i s = .next t) (hi : i ≠ .btReset) :
    ∃ cells, t.bt.cells = s.bt.cells ++ cells := by
  by_cases hu : agentOf i = .bitTrack
  · cases i with
    | btReset => exact absurd rfl hi
    | btRaw pattern nbits =>
      obtain ⟨-, rfl⟩ | ⟨-, rfl⟩ := execBtRaw_next_cases pattern nbits s t h
      · exact ⟨[], (List.append_nil _).symm⟩
      · exact ⟨bitsDown pattern nbits, rfl⟩
    | btMfm b => cases h; exact mfmByte_cells_append b s.bt
    | btFm b => cases h; exact fmByte_cells_append b s.bt
    | btRead => cases h; exact ⟨[], (List.append_nil _).symm⟩
    | _ => cases hu
  · exact ⟨[], by rw [exec_keeps_bt i s t h hu, List.append_nil]⟩

/-- Settles O55: the BitTrack and the Track grow at their ends under every instruction but their resets. -/
theorem sequencesOnlyGrow : Obligations.SequencesOnlyGrow := by
  intro i s t h
  have heffect := exec_trackEffect i s t h
  refine ⟨exec_cells_append i s t h, fun hi => ?_, heffect.keeps_gate⟩
  obtain ⟨bytes, hbuffer, -⟩ := heffect.grows hi
  exact ⟨bytes, hbuffer⟩

end Sys2Proof.Machine
end

section
/-! R40: the timestep stays the accounted clocks of the buffer; R47: the invariants hold at reset. -/

namespace Sys2Proof.Machine

theorem timestepAccounted_of_tr_eq {s t : State} (htr : t.tr = s.tr) (h : timestepAccounted s) :
    timestepAccounted t := by
  unfold timestepAccounted at h ⊢
  rw [htr, h]

theorem timestepAccounted_of_tr_eq_reset {s : State} (htr : s.tr = Track.reset) : timestepAccounted s := by
  unfold timestepAccounted
  rw [htr]
  rfl

theorem timestepAccounted_of_grows {s t : State} (hgrows : s.tr.Grows t.tr) (h : timestepAccounted s) :
    timestepAccounted t := by
  obtain ⟨bytes, hbuffer, htime⟩ := hgrows
  unfold timestepAccounted at h ⊢
  rw [htime, h, hbuffer, accountedClocks_append, BitVec.ofNat_add]

theorem exec_keeps_timestepAccounted (i : Instr) (s t : State) (h : exec i s = .next t)
    (hs : timestepAccounted s) : timestepAccounted t := by
  have heffect := exec_trackEffect i s t h
  by_cases hi : i = .trReset
  · subst hi
    exact timestepAccounted_of_tr_eq_reset heffect.eq_reset
  · exact timestepAccounted_of_grows (heffect.grows hi) hs

/-- Settles O56: an instruction accounts what it appends, a block reset empties the Track, and the other steps do not
touch it. -/
theorem everyStepKeepsTheTimestepAccounted : Obligations.EveryStepKeepsTheTimestepAccounted := by
  intro s t h hs
  have htaken : timestepAccounted (takeInput s) := timestepAccounted_of_tr_eq rfl hs
  obtain ⟨-, rfl⟩ | ⟨_, i, -, -, hexec⟩ | ⟨_, _, -, -, rfl⟩ | ⟨-, rfl⟩ | ⟨_, -, rfl⟩ := step_next_cases s t h
  · exact htaken
  · exact exec_keeps_timestepAccounted i _ t hexec htaken
  · exact timestepAccounted_of_tr_eq rfl htaken
  · exact timestepAccounted_of_tr_eq_reset rfl
  · exact timestepAccounted_of_tr_eq rfl htaken

/-- Settles O49: the fields hold by definition, and at reset buffer, program and events are empty. -/
theorem resetStateAndItsInvariants : Obligations.ResetStateAndItsInvariants := by
  have hbuffer : bufferEmittable State.reset := fun _ hb => absurd hb List.not_mem_nil
  have hwriter : writerInBounds State.reset := fun _ hp => nomatch hp
  have hevents : eventsOrdered State.reset := ⟨fun _ he => absurd he List.not_mem_nil, .nil⟩
  exact ⟨rfl, rfl, rfl, rfl, rfl, rfl, rfl, rfl, timestepAccounted_of_tr_eq_reset rfl, hbuffer, hwriter, hevents⟩

end Sys2Proof.Machine
end

section
/-! R71: the reads write nothing but their answer, the resets repeat. -/

namespace Sys2Proof.Machine

theorem execTrGetBuffer_writes_nothing (s t : State) (h : execTrGetBuffer s = .next t) :
    t = { s with response := t.response } := by
  obtain ⟨r, rfl⟩ := execTrGetBuffer_next s t h
  rfl

theorem finish_writes_nothing (result : Result) (s t : State) (h : finish result s = .next t) :
    t = { s with response := t.response } := by
  obtain rfl := (finish_eq_next_iff result s t).mp h
  rfl

/-- An operation whose update adds nothing when done again, whatever was answered in between, repeats (R71). -/
theorem finish_repeats (f : State → State) (s t : State) (hf : ∀ r, f ((f s).withResponse r) = (f s).withResponse r)
    (h : finish .none (f s) = .next t) : finish .none (f t) = .next t := by
  obtain rfl := (finish_eq_next_iff .none (f s) t).mp h
  rw [hf]
  rfl

/-- Settles O52: five reads end OK on the state they found and TR_GET_BUFFER may raise instead; each reset puts its
unit at a value that it reaches again. -/
theorem readsWriteNothingAndResetsRepeat : Obligations.ReadsWriteNothingAndResetsRepeat := by
  intro bytes seed s t
  simp only [List.forall_mem_cons, List.not_mem_nil, false_implies, implies_true, and_true]
  refine ⟨⟨?crcCalc, ?crcRead, ?getTime, ?getBuffer, ?btRead, ?getGate⟩, ⟨?btReset, ?trReset, ?crcReset, ?crcReseed⟩⟩
  case crcCalc | crcRead | getTime | btRead | getGate => exact finish_writes_nothing _ s t
  case getBuffer => exact execTrGetBuffer_writes_nothing s t
  case btReset => exact finish_repeats (·.withBt BitTrack.reset) s t fun _ => rfl
  case trReset => exact finish_repeats (·.withTr Track.reset) s t fun _ => rfl
  case crcReset => exact finish_repeats (fun u => setCurrent u.crc.initial u) s t fun _ => rfl
  case crcReseed => exact finish_repeats (reseed seed) s t fun _ => rfl

end Sys2Proof.Machine
end

section
/-! R73, R76, R331: the units are apart, in what an instruction writes and in what it depends on. -/

namespace Sys2Proof.Machine

@[simp] theorem State.withUnitOf_inputs (s t : State) (unit : Agent) : (s.withUnitOf unit t).inputs = s.inputs := by
  cases unit <;> rfl

@[simp] theorem State.withUnitOf_trackCap (s t : State) (unit : Agent) :
    (s.withUnitOf unit t).trackCap = s.trackCap := by
  cases unit <;> rfl

theorem exec_keeps_inputs (i : Instr) (s t : State) (h : exec i s = .next t) : t.inputs = s.inputs := by
  rw [exec_eq_withUnitOf i s t h, State.withUnitOf_inputs]

theorem exec_keeps_trackCap (i : Instr) (s t : State) (h : exec i s = .next t) : t.trackCap = s.trackCap := by
  rw [exec_eq_withUnitOf i s t h, State.withUnitOf_trackCap]

theorem exec_keeps_writer (i : Instr) (s t : State) (h : exec i s = .next t) (hi : agentOf i ≠ .writer) :
    t.writer = s.writer ∧ t.draws = s.draws := by
  rw [exec_eq_withUnitOf i s t h]
  cases hu : agentOf i with
  | writer => exact absurd hu hi
  | crcUnit | bitTrack | track | lowering => exact ⟨rfl, rfl⟩

theorem exec_keeps_response (i : Instr) (s t : State) (h : exec i s = .next t) (hi : agentOf i = .writer) :
    t.response = s.response := by
  rw [exec_eq_withUnitOf i s t h, hi]
  rfl

/-- Settles O53: what an instruction leaves as it is, field by field. -/
theorem unitsChangeOnlyThemselves : Obligations.UnitsChangeOnlyThemselves := fun i s t h =>
  ⟨exec_keeps_crc i s t h, exec_keeps_bt i s t h, exec_keeps_tr i s t h, exec_keeps_writer i s t h,
    exec_keeps_response i s t h, exec_keeps_inputs i s t h, exec_keeps_trackCap i s t h⟩

/-- `s₂` agrees with `s₁` on everything an instruction of that unit may depend on (R73). -/
def State.AgreesFor (unit : Agent) (s₁ s₂ : State) : Prop :=
  match unit with
  | .crcUnit => s₂.crc = s₁.crc
  | .bitTrack => s₂.bt = s₁.bt
  | .track => s₂.tr = s₁.tr ∧ s₂.trackCap = s₁.trackCap
  | .lowering => s₂.bt = s₁.bt ∧ s₂.tr = s₁.tr
  | .writer => s₂.writer = s₁.writer ∧ s₂.draws = s₁.draws

theorem execTrGetBuffer_eq (s : State) :
    execTrGetBuffer s = .next (s.withResponse
      (if tooLong s.trackCap s.tr.buffer then .error (.trackTooLong s.tr.buffer.length)
        else .ok (.buffer s.tr.buffer))) := by
  unfold execTrGetBuffer
  split <;> rfl

theorem execBtToTrack_of_negative (cellTime precomp : Nat) (s : State) (time : Int)
    (hneg : (lowerWaits cellTime precomp s.bt.cells).find? (fun w => decide (w < 0)) = some time) :
    execBtToTrack cellTime precomp s = raise (.invalidFluxTime time) s := by
  simp only [execBtToTrack, hneg]

theorem execBtToTrack_of_nonneg (cellTime precomp : Nat) (s : State)
    (hwaits : ∀ w ∈ lowerWaits cellTime precomp s.bt.cells, 0 ≤ w) :
    execBtToTrack cellTime precomp s =
      finish .none (s.withTr (emitWaits (lowerWaits cellTime precomp s.bt.cells) s.tr)) := by
  have hnone : (lowerWaits cellTime precomp s.bt.cells).find? (fun w => decide (w < 0)) = none :=
    List.find?_eq_none.mpr fun w hw hneg => absurd (of_decide_eq_true hneg) (Int.not_lt.mpr (hwaits w hw))
  simp only [execBtToTrack, hnone]

/-- R242: a count that is not the reserved 0 draws the wait. -/
theorem execWaitIndex_of_ne_zero (k : BitVec 6) (s : State) (hk : k ≠ 0#6) :
    execWaitIndex k s = .next (s.withWriter (s.writer.advance (Config.indexWaitDuration s.draws))).countDraw := by
  simp only [execWaitIndex, beq_eq_false_iff_ne.mpr hk, Bool.false_eq_true, if_false]

/-- From a state that agrees on what the unit may depend on, an instruction writes the same values to the unit and
leaves that state's other fields. -/
theorem exec_of_agreesFor (i : Instr) (s₁ s₂ t₁ : State) (h : exec i s₁ = .next t₁)
    (hagree : s₁.AgreesFor (agentOf i) s₂) : exec i s₂ = .next (s₂.withUnitOf (agentOf i) t₁) := by
  cases s₂
  cases i with
  | crcInit | crcCalc | crcUpdate | crcUpdateByte | crcReset | crcReseed | crcRead
  | btReset | btMfm | btFm | btRead =>
    obtain rfl := hagree
    cases h; rfl
  | btRaw pattern nbits =>
    obtain rfl := hagree
    obtain ⟨hbad, rfl⟩ | ⟨hok, rfl⟩ := execBtRaw_next_cases pattern nbits s₁ t₁ h
    · exact if_pos hbad
    · exact if_neg (Nat.not_lt.mpr hok)
  | trReset | trEmitWrgate | trEmitStop | trGetTime | trGetGate | waitTimer | stop | waitHstmd | transition | wrGate =>
    obtain ⟨rfl, rfl⟩ := hagree
    cases h; rfl
  | trEmitFlux time =>
    obtain ⟨rfl, rfl⟩ := hagree
    obtain ⟨hbad, rfl⟩ | ⟨hok, rfl⟩ := execTrEmitFlux_next_cases time s₁ t₁ h
    · exact if_pos hbad
    · exact if_neg (Int.not_lt.mpr hok)
  | trEmitWaitIndex n =>
    obtain ⟨rfl, rfl⟩ := hagree
    obtain ⟨hbad, rfl⟩ | ⟨hok, rfl⟩ := execTrEmitWaitIndex_next_cases n s₁ t₁ h
    · exact if_pos hbad
    · exact if_neg (Int.not_lt.mpr hok)
  | trGetBuffer =>
    obtain ⟨rfl, rfl⟩ := hagree
    cases (execTrGetBuffer_eq s₁).symm.trans h
    exact execTrGetBuffer_eq _
  | btToTrack cellTime precomp =>
    obtain ⟨rfl, rfl⟩ := hagree
    obtain ⟨time, hneg, rfl⟩ | ⟨hwaits, rfl⟩ := execBtToTrack_next_cases cellTime precomp s₁ t₁ h
    · exact execBtToTrack_of_negative cellTime precomp _ time hneg
    · exact execBtToTrack_of_nonneg cellTime precomp _ hwaits
  | waitIndex k =>
    obtain ⟨rfl, rfl⟩ := hagree
    by_cases hk : k = 0#6
    · subst hk; cases h
    · cases (execWaitIndex_of_ne_zero k s₁ hk).symm.trans h
      exact execWaitIndex_of_ne_zero k _ hk

/-- Settles O54: each clause is the agreement on that unit's fields, and the fields that the unit's instructions write
are the same. -/
theorem unitsLearnNothingOfOneAnother : Obligations.UnitsLearnNothingOfOneAnother := by
  intro i s₁ s₂ t₁ h
  have htransfer (unit : Agent) (hi : agentOf i = unit) (hagree : s₁.AgreesFor unit s₂) :
      exec i s₂ = .next (s₂.withUnitOf unit t₁) := by
    subst hi
    exact exec_of_agreesFor i s₁ s₂ t₁ h hagree
  exact ⟨fun hi hcrc => ⟨_, htransfer .crcUnit hi hcrc, rfl, rfl⟩,
    fun hi hbt => ⟨_, htransfer .bitTrack hi hbt, rfl, rfl⟩,
    fun hi htr hcap => ⟨_, htransfer .track hi ⟨htr, hcap⟩, rfl, rfl⟩,
    fun hi hbt htr => ⟨_, htransfer .lowering hi ⟨hbt, htr⟩, rfl, rfl⟩,
    fun hi hwriter hdraws => ⟨_, htransfer .writer hi ⟨hwriter, hdraws⟩, rfl, rfl⟩⟩

end Sys2Proof.Machine
end

section
/-! R76, R240, R332: hand-offs and idle steps. -/

namespace Sys2Proof.Machine

theorem step_of_handOff (s : State) (p : List Byte) (hf : fetch s = .handOff p) :
    step s = .next (handOff p (takeInput s)) := by
  simp only [step, hf]

theorem step_of_idle (s : State) (hf : fetch s = .idle) : step s = .next (takeInput s) := by
  simp only [step, hf]

theorem takeInput_of_inputs_nil (s : State) (h : s.inputs = []) : takeInput s = s := by
  cases s
  subst h
  rfl

theorem fetchCommand_of_no_program (w : Writer) (h : w.program = none) : fetchCommand w = .idle := by
  simp only [fetchCommand, h]

/-- Settles O48: the head of the inputs says what is fetched, and the step takes it off. -/
theorem handOffStartsTheWriterAndIdleWaits : Obligations.HandOffStartsTheWriterAndIdleWaits := by
  intro p rest s
  refine ⟨fun hin => ?_, fun hin => ?_, fun hin hp => ?_⟩
  · rw [step_of_handOff s p (fetch_of_handOff s p rest hin), takeInput_cons s _ rest hin]
    rfl
  · rw [step_of_idle s (fetch_of_inputs_nil s hin), takeInput_of_inputs_nil s hin]
  · have hidle : fetch s = .idle :=
      (fetch_of_writerStep s rest hin).trans (fetchCommand_of_no_program s.writer hp)
    rw [step_of_idle s hidle, takeInput_cons s _ rest hin]

end Sys2Proof.Machine
end

section
/-! R92 to R99: which codes the operation map names, what a request decodes to, and the two parametrized command
bytes as numbers. -/

namespace Sys2Proof.Machine

/-- R92: the codes of the operation map lie in three ranges. -/
theorem code_range_of_mem_opMap (row : Byte × OpCode) (h : row ∈ opMap) :
    (0x10 ≤ row.1.toNat ∧ row.1.toNat ≤ 0x16) ∨ (0x20 ≤ row.1.toNat ∧ row.1.toNat ≤ 0x25) ∨
      (0x30 ≤ row.1.toNat ∧ row.1.toNat ≤ 0x37) := by
  revert row
  decide

/-- R93: outside the three ranges of R92 no code names an operation. -/
theorem opOf_eq_none_of_undefined (op : Byte)
    (h : op.toNat ≤ 0x0F ∨ (0x17 ≤ op.toNat ∧ op.toNat ≤ 0x1F) ∨ (0x26 ≤ op.toNat ∧ op.toNat ≤ 0x2F) ∨
      0x38 ≤ op.toNat) : opOf op = none := by
  rw [opOf, Option.map_eq_none_iff, List.find?_eq_none]
  intro row hrow hop
  have hcode := code_range_of_mem_opMap row hrow
  rw [beq_iff_eq.mp hop] at hcode
  omega

theorem decodeRequest_of_opOf_none (op : Byte) (operands : List Operand) (hop : opOf op = none) :
    decodeRequest ⟨op, operands⟩ = .error (.undefinedOp op) := by
  simp only [decodeRequest, hop]

theorem decodeRequest_of_readOperands_some (op : Byte) (c : OpCode) (operands : List Operand) (i : Instr)
    (hop : opOf op = some c) (hread : readOperands c operands = some i) :
    decodeRequest ⟨op, operands⟩ = .ok i := by
  simp only [decodeRequest, hop, hread]

theorem decodeRequest_of_readOperands_none (op : Byte) (c : OpCode) (operands : List Operand)
    (hop : opOf op = some c) (hread : readOperands c operands = none) :
    decodeRequest ⟨op, operands⟩ = .error (.operandRefused op) := by
  simp only [decodeRequest, hop, hread]

theorem step_of_decode_error (s : State) (c : Code) (e : DecodeError)
    (hf : fetch s = .code c) (hd : decode c = .error e) : step s = reject e (takeInput s) := by
  simp only [step, hf, hd]

/-- R96: bit 7 and the wait less 2 do not overlap. -/
theorem toNat_waitTimerByte (t : Nat) (h : t - 2 < 0x80) : (waitTimerByte t).toNat = 0x80 + (t - 2) := by
  have hor : 0x80 + (t - 2) = 0x80 ||| (t - 2) := Nat.two_pow_add_eq_or_of_lt (i := 7) h 1
  have hfield : (BitVec.ofNat 8 (t - 2)).toNat = t - 2 := Nat.mod_eq_of_lt (by omega)
  rw [waitTimerByte, BitVec.toNat_or, hfield, hor]
  rfl

/-- R97: bit 6 and the count do not overlap. -/
theorem toNat_waitIndexByte (k : Nat) (h : k < 0x40) : (waitIndexByte k).toNat = 0x40 + k := by
  have hor : 0x40 + k = 0x40 ||| k := Nat.two_pow_add_eq_or_of_lt (i := 6) h 1
  have hfield : (BitVec.ofNat 8 k).toNat = k := Nat.mod_eq_of_lt (by omega)
  rw [waitIndexByte, BitVec.toNat_or, hfield, hor]
  rfl

theorem decode_encode_of_request (i : Instr) (op : Byte) (c : OpCode) (operands : List Operand)
    (hcode : encode i = .request ⟨op, operands⟩) (hop : opOf op = some c)
    (hread : readOperands c operands = some i) : decode (encode i) = .ok i := by
  rw [hcode]
  exact decodeRequest_of_readOperands_some op c operands i hop hread

theorem encode_waitTimer (w : BitVec 7) : encode (.waitTimer w) = .command (waitTimerByte (w.toNat + 2)) := by
  rw [encode, waitTimerByte, Nat.add_sub_cancel, BitVec.ofNat_toNat]

theorem encode_waitIndex (k : BitVec 6) : encode (.waitIndex k) = .command (waitIndexByte k.toNat) := by
  rw [encode, waitIndexByte, BitVec.ofNat_toNat]

end Sys2Proof.Machine
end

section
/-! R92, R95: decoding undoes encoding. -/

namespace Sys2Proof.Machine

/-- Settles O40: a request's operands are read back as they were written out, a command's field is cut out of the
byte it was put in. -/
theorem decodeOfEncodeIsTheInstruction : Obligations.DecodeOfEncodeIsTheInstruction := by
  intro i hwf
  cases i with
  | crcReset | crcRead | btReset | btRead | trReset | trEmitStop | trGetTime | trGetBuffer | trGetGate
  | trEmitWrgate | trEmitFlux | trEmitWaitIndex =>
    exact decode_encode_of_request _ _ _ _ rfl rfl rfl
  | crcInit v | crcReseed v | crcUpdateByte v | btMfm v | btFm v =>
    exact decode_encode_of_request _ _ _ _ rfl rfl (congrArg (Option.map _) (readWord_toNat v))
  | crcCalc bytes | crcUpdate bytes =>
    exact decode_encode_of_request _ _ _ _ rfl rfl (congrArg (Option.map _) (readBytes_toNat bytes))
  | btRaw pattern nbits =>
    refine decode_encode_of_request _ _ .btRaw _ rfl rfl ?_
    simp only [numOperand, readOperands, readWord_toNat, readNat_natCast]
  | btToTrack cellTime precomp =>
    refine decode_encode_of_request _ _ .btToTrack _ rfl rfl ?_
    simp only [readOperands, readNat_natCast]
  | stop | waitHstmd | transition => rfl
  | wrGate g => cases g <;> rfl
  | waitTimer w =>
    rw [encode_waitTimer]
    refine (decodeCommand_waitTimerByte _).trans ?_
    rw [Nat.add_sub_cancel, BitVec.ofNat_toNat, BitVec.setWidth_eq]
  | waitIndex k =>
    have hpos : 1 ≤ k.toNat := Nat.pos_of_ne_zero fun h0 => (bne_iff_ne.mp hwf) (BitVec.eq_of_toNat_eq h0)
    have hmax : k.toNat ≤ 63 := Nat.le_of_lt_succ k.isLt
    rw [encode_waitIndex]
    refine (decodeCommand_waitIndexByte _ hpos hmax).trans ?_
    rw [BitVec.ofNat_toNat, BitVec.setWidth_eq]

theorem decodeTableWord_of_encode (w : Nat) (i : Instr) (hw : w < 256)
    (hcode : tableCode (BitVec.ofNat 8 w) = encode i) (hwf : i.wellFormed = true) :
    decodeTableWord 8 w = some i := by
  rw [decodeTableWord, hcode, decodeOfEncodeIsTheInstruction i hwf, decide_eq_true hw]
  rfl

/-- Settles O42: each word is the coded form of its instruction, which O40 decodes. -/
theorem wordsOfEachFamilyDecode : Obligations.WordsOfEachFamilyDecode :=
  ⟨decodeTableWord_of_encode _ .crcRead (by decide) rfl rfl,
    decodeTableWord_of_encode _ .crcReset (by decide) rfl rfl,
    decodeTableWord_of_encode _ .btReset (by decide) rfl rfl,
    decodeTableWord_of_encode _ .btRead (by decide) rfl rfl,
    decodeOfEncodeIsTheInstruction (.btToTrack 400 13) rfl,
    decodeTableWord_of_encode _ .trEmitStop (by decide) rfl rfl,
    decodeTableWord_of_encode _ .trGetTime (by decide) rfl rfl,
    decodeTableWord_of_encode _ (.waitTimer 11#7) (by decide) rfl rfl,
    decodeTableWord_of_encode _ (.waitIndex 2#6) (by decide) rfl rfl,
    decodeTableWord_of_encode _ .stop (by decide) rfl rfl,
    decodeTableWord_of_encode _ (.wrGate .write) (by decide) rfl rfl⟩

end Sys2Proof.Machine
end

section
/-! R93, R94: requests that are no instruction. -/

namespace Sys2Proof.Machine

/-- Settles O43: the code is looked at before the operands, and it names no operation. -/
theorem undefinedCodesAnswerInvalidOperation : Obligations.UndefinedCodesAnswerInvalidOperation := by
  intro op operands rest s hop hin
  have hdecode := decodeRequest_of_opOf_none op operands (opOf_eq_none_of_undefined op hop)
  rw [step_of_decode_error s _ _ (fetch_of_request s _ rest hin) hdecode, takeInput_cons s _ rest hin]
  rfl

theorem step_of_readOperands_none (s : State) (op : Byte) (c : OpCode) (operands : List Operand)
    (rest : List Input) (hop : opOf op = some c) (hread : readOperands c operands = none) :
    step { s with inputs := .request ⟨op, operands⟩ :: rest } = .refused (.operandRefused op) :=
  step_of_decode_error _ _ _ (fetch_of_request _ _ rest rfl)
    (decodeRequest_of_readOperands_none op c operands hop hread)

theorem readOperands_btRaw_of_pattern (v : Int) (x : Operand) (h : v < 0 ∨ 2 ^ 32 ≤ v) :
    readOperands .btRaw [.num v, x] = none := by
  cases x with
  | num n => simp only [readOperands, readWord_eq_none v h]
  | seq | gate => rfl

theorem readOperands_btRaw_of_nbits (x : Operand) (v : Int) (h : v < 0) :
    readOperands .btRaw [x, .num v] = none := by
  cases x with
  | num n =>
    simp only [readOperands, readNat_eq_none v h]
    cases readWord 32 n <;> rfl
  | seq | gate => rfl

theorem readOperands_btToTrack_of_cellTime (v : Int) (x : Operand) (h : v < 0) :
    readOperands .btToTrack [.num v, x] = none := by
  cases x with
  | num n => simp only [readOperands, readNat_eq_none v h]
  | seq | gate => rfl

theorem readOperands_btToTrack_of_precomp (x : Operand) (v : Int) (h : v < 0) :
    readOperands .btToTrack [x, .num v] = none := by
  cases x with
  | num n =>
    simp only [readOperands, readNat_eq_none v h]
    cases readNat n <;> rfl
  | seq | gate => rfl

/-- Settles O44: an operand that is not read leaves the operation without its operands. -/
theorem operandsThatDoNotFitAreRefused : Obligations.OperandsThatDoNotFitAreRefused := by
  intro v x vs rest s
  simp only [List.forall_mem_cons, List.not_mem_nil, false_imp_iff, implies_true, and_true]
  refine ⟨fun hv => ?_, fun hv => ?_, fun hvs => ?_, fun hv => ?_, fun hv => ⟨?_, ?_, ?_, ?_⟩⟩
  · have hword : readWord 16 v = none := readWord_eq_none v hv
    exact ⟨step_of_readOperands_none s _ .crcInit _ rest rfl (congrArg (Option.map _) hword),
      step_of_readOperands_none s _ .crcReseed _ rest rfl (congrArg (Option.map _) hword)⟩
  · have hword : readWord 8 v = none := readWord_eq_none v hv
    exact ⟨step_of_readOperands_none s _ .crcUpdateByte _ rest rfl (congrArg (Option.map _) hword),
      step_of_readOperands_none s _ .btMfm _ rest rfl (congrArg (Option.map _) hword),
      step_of_readOperands_none s _ .btFm _ rest rfl (congrArg (Option.map _) hword)⟩
  · have hbytes : readBytes vs = none := readBytes_eq_none vs hvs
    exact ⟨step_of_readOperands_none s _ .crcCalc _ rest rfl (congrArg (Option.map _) hbytes),
      step_of_readOperands_none s _ .crcUpdate _ rest rfl (congrArg (Option.map _) hbytes)⟩
  · have hword : readWord 32 v = none := readWord_eq_none v hv
    exact ⟨step_of_readOperands_none s _ .btRaw _ rest rfl (congrArg (Option.map _) hword),
      step_of_readOperands_none s _ .btRaw _ rest rfl (readOperands_btRaw_of_pattern v x hv)⟩
  · exact step_of_readOperands_none s _ .btRaw _ rest rfl (readOperands_btRaw_of_nbits x v hv)
  · exact step_of_readOperands_none s _ .btToTrack _ rest rfl (congrArg (Option.map _) (readNat_eq_none v hv))
  · exact step_of_readOperands_none s _ .btToTrack _ rest rfl (readOperands_btToTrack_of_cellTime v x hv)
  · exact step_of_readOperands_none s _ .btToTrack _ rest rfl (readOperands_btToTrack_of_precomp x v hv)

end Sys2Proof.Machine
end

section
/-! R100: the command decoder by ranges of bytes, and back. -/

namespace Sys2Proof.Machine

theorem eq_waitTimerByte (b : Byte) (h : 0x80 ≤ b.toNat) : b = waitTimerByte (b.toNat - 0x80 + 2) := by
  have hlt := b.isLt
  apply BitVec.eq_of_toNat_eq
  rw [toNat_waitTimerByte _ (by omega)]
  omega

theorem eq_waitIndexByte (b : Byte) (hlo : 0x40 ≤ b.toNat) (hhi : b.toNat ≤ 0x7F) :
    b = waitIndexByte (b.toNat - 0x40) := by
  apply BitVec.eq_of_toNat_eq
  rw [toNat_waitIndexByte _ (by omega)]
  omega

theorem decodeCommand_of_timerRange (b : Byte) (h : 0x80 ≤ b.toNat) :
    decodeCommand b = .ok (.waitTimer (BitVec.ofNat 7 (b.toNat - 0x80))) := by
  have hdecode := decodeCommand_waitTimerByte (b.toNat - 0x80 + 2)
  rwa [Nat.add_sub_cancel, ← eq_waitTimerByte b h] at hdecode

theorem decodeCommand_of_indexRange (b : Byte) (hlo : 0x41 ≤ b.toNat) (hhi : b.toNat ≤ 0x7F) :
    decodeCommand b = .ok (.waitIndex (BitVec.ofNat 6 (b.toNat - 0x40))) := by
  have hdecode := decodeCommand_waitIndexByte (b.toNat - 0x40) (by omega) (by omega)
  rwa [← eq_waitIndexByte b (by omega) hhi] at hdecode

/-- R99: no mark of a wait is set and the byte is none of the fixed commands. -/
theorem decodeCommand_of_reservedRange (b : Byte) (hlo : 0x04 ≤ b.toNat) (hhi : b.toNat ≤ 0x3E) :
    decodeCommand b = .error (.reservedCommand b) := by
  have htimer : b.getLsbD 7 = false := by
    rw [BitVec.getLsbD]
    exact Nat.testBit_lt_two_pow (by omega)
  have hindex : b.extractLsb' 6 2 = 0b00#2 := by
    apply BitVec.eq_of_toNat_eq
    simp only [BitVec.extractLsb'_toNat, BitVec.toNat_ofNat, Nat.shiftRight_eq_div_pow]
    omega
  have hfixed : ∀ c : Byte, c.toNat < 0x04 ∨ 0x3E < c.toNat → (b == c) = false := by
    rintro c hc
    rw [beq_eq_false_iff_ne]
    rintro rfl
    omega
  have hmark : (0b00#2 == 0b01#2) = false := rfl
  simp only [decodeCommand, htimer, hindex, hmark, hfixed 0x3F#8 (by decide), hfixed 0x03#8 (by decide),
    hfixed 0x02#8 (by decide), hfixed 0x00#8 (by decide), hfixed 0x01#8 (by decide), Bool.false_eq_true, if_false]

theorem decodeCommand_by_ranges (b : Byte) :
    (0x80 ≤ b.toNat → decodeCommand b = .ok (.waitTimer (BitVec.ofNat 7 (b.toNat - 0x80)))) ∧
    (0x41 ≤ b.toNat → b.toNat ≤ 0x7F → decodeCommand b = .ok (.waitIndex (BitVec.ofNat 6 (b.toNat - 0x40)))) ∧
    (b.toNat = 0x3F → decodeCommand b = .ok .stop) ∧
    (b.toNat = 0x03 → decodeCommand b = .ok .waitHstmd) ∧
    (b.toNat = 0x02 → decodeCommand b = .ok .transition) ∧
    (b.toNat = 0x01 → decodeCommand b = .ok (.wrGate .write)) ∧
    (b.toNat = 0x00 → decodeCommand b = .ok (.wrGate .read)) ∧
    (b.toNat = 0x40 ∨ (0x04 ≤ b.toNat ∧ b.toNat ≤ 0x3E) →
      decodeCommand b = .error (.reservedCommand b)) := by
  have hfixed : ∀ (c : Byte), b.toNat = c.toNat → decodeCommand b = decodeCommand c :=
    fun c h => congrArg decodeCommand (BitVec.eq_of_toNat_eq h)
  refine ⟨decodeCommand_of_timerRange b, decodeCommand_of_indexRange b, hfixed 0x3F#8, hfixed 0x03#8,
    hfixed 0x02#8, hfixed 0x01#8, hfixed 0x00#8, ?_⟩
  rintro (h | ⟨hlo, hhi⟩)
  · obtain rfl : b = 0x40#8 := BitVec.eq_of_toNat_eq h
    rfl
  · exact decodeCommand_of_reservedRange b hlo hhi

theorem encode_of_timerRange (b : Byte) (h : 0x80 ≤ b.toNat) :
    encode (.waitTimer (BitVec.ofNat 7 (b.toNat - 0x80))) = .command b := by
  have hfield : (BitVec.ofNat 7 (b.toNat - 0x80)).toNat = b.toNat - 0x80 :=
    Nat.mod_eq_of_lt (by have := b.isLt; omega)
  rw [encode_waitTimer, hfield, ← eq_waitTimerByte b h]

theorem encode_of_indexRange (b : Byte) (hlo : 0x41 ≤ b.toNat) (hhi : b.toNat ≤ 0x7F) :
    encode (.waitIndex (BitVec.ofNat 6 (b.toNat - 0x40))) = .command b ∧
      (Instr.waitIndex (BitVec.ofNat 6 (b.toNat - 0x40))).wellFormed = true := by
  have hfield : (BitVec.ofNat 6 (b.toNat - 0x40)).toNat = b.toNat - 0x40 := Nat.mod_eq_of_lt (by omega)
  constructor
  · rw [encode_waitIndex, hfield, ← eq_waitIndexByte b (by omega) hhi]
  · refine bne_iff_ne.mpr fun hzero => ?_
    have hnat : b.toNat - 0x40 = 0 := hfield.symm.trans (congrArg BitVec.toNat hzero)
    omega

/-- R99: a command byte is below 0x04, or at least 0x3F, and there R92 has no code. -/
theorem opOf_eq_none_of_decodeCommand_ok (b : Byte) (i : Instr) (h : decodeCommand b = .ok i) :
    opOf b = none := by
  have hrange : ¬ (0x04 ≤ b.toNat ∧ b.toNat ≤ 0x3E) := by
    rintro ⟨hlo, hhi⟩
    rw [decodeCommand_of_reservedRange b hlo hhi] at h
    cases h
  exact opOf_eq_none_of_undefined b (by omega)

/-- R95: the encoder writes the byte the decoder reads, in each range of R100. -/
theorem encode_of_decodeCommand_ok (b : Byte) (i : Instr) (h : decodeCommand b = .ok i) :
    encode i = .command b ∧ i.wellFormed = true := by
  obtain ⟨htimer, hindex, hstop, hhstmd, htransition, hwrite, hread, hreserved⟩ := decodeCommand_by_ranges b
  have hbyte : ∀ c : Byte, b.toNat = c.toNat → c = b := fun c hc => (BitVec.eq_of_toNat_eq hc).symm
  have hinstr : ∀ j, decodeCommand b = .ok j → j = i := fun j hj => Except.ok.inj (hj.symm.trans h)
  obtain hb | ⟨hlo, hhi⟩ | hb | hb | hb | hb | hb | hb : 0x80 ≤ b.toNat ∨ (0x41 ≤ b.toNat ∧ b.toNat ≤ 0x7F) ∨
      b.toNat = 0x3F ∨ b.toNat = 0x03 ∨ b.toNat = 0x02 ∨ b.toNat = 0x01 ∨ b.toNat = 0x00 ∨
      (b.toNat = 0x40 ∨ (0x04 ≤ b.toNat ∧ b.toNat ≤ 0x3E)) := by omega
  · obtain rfl := hinstr _ (htimer hb)
    exact ⟨encode_of_timerRange b hb, rfl⟩
  · obtain rfl := hinstr _ (hindex hlo hhi)
    exact encode_of_indexRange b hlo hhi
  · obtain rfl := hinstr _ (hstop hb)
    exact ⟨congrArg Code.command (hbyte 0x3F#8 hb), rfl⟩
  · obtain rfl := hinstr _ (hhstmd hb)
    exact ⟨congrArg Code.command (hbyte 0x03#8 hb), rfl⟩
  · obtain rfl := hinstr _ (htransition hb)
    exact ⟨congrArg Code.command (hbyte 0x02#8 hb), rfl⟩
  · obtain rfl := hinstr _ (hwrite hb)
    exact ⟨congrArg Code.command (hbyte 0x01#8 hb), rfl⟩
  · obtain rfl := hinstr _ (hread hb)
    exact ⟨congrArg Code.command (hbyte 0x00#8 hb), rfl⟩
  · cases (hreserved hb).symm.trans h

/-- Settles O41: the decoder range by range, and on each range the encoder goes back. -/
theorem commandDecoderByRanges : Obligations.CommandDecoderByRanges := by
  refine ⟨decodeCommand_by_ranges, fun b i h => ?_⟩
  obtain ⟨hencode, hwf⟩ := encode_of_decodeCommand_ok b i h
  exact ⟨hencode, hwf, opOf_eq_none_of_decodeCommand_ok b i h⟩

end Sys2Proof.Machine
end

section
/-! R120 to R122: the shifts of R120 are linear, so the byte step is the remainder's low half moved up and a table
entry for the rest. -/

namespace Sys2Proof.Machine

@[simp] theorem crcHigh_append (high low : Byte) : crcHigh (high ++ low) = high :=
  BitVec.extractLsb'_append_eq_left

@[simp] theorem crcLow_append (high low : Byte) : crcLow (high ++ low) = low :=
  BitVec.extractLsb'_append_eq_right

theorem crcHigh_append_crcLow (c : Word16) : crcHigh c ++ crcLow c = c :=
  BitVec.extractLsb'_append_extractLsb'

theorem shiftLeft_eight_eq_append (c : Word16) : c <<< 8 = crcLow c ++ 0#8 :=
  BitVec.shiftLeft_eq_concat_of_lt (by decide)

theorem crcLow_setWidth (b : Byte) : crcLow (b.setWidth 16) = b := by
  rw [crcLow, ← BitVec.setWidth_eq_extractLsb' (by decide), BitVec.setWidth_setWidth_of_le _ (by decide),
    BitVec.setWidth_eq]

/-- R65: the byte enters at the high half, the low half stays. -/
theorem crcByte_eq_crcShifts (c : Word16) (b : Byte) : crcByte c b = crcShifts 8 ((crcHigh c ^^^ b) ++ crcLow c) := by
  have henter : c ^^^ (b.setWidth 16 <<< 8) = (crcHigh c ^^^ b) ++ crcLow c := by
    rw [shiftLeft_eight_eq_append, crcLow_setWidth]
    calc c ^^^ (b ++ 0#8)
      _ = (crcHigh c ++ crcLow c) ^^^ (b ++ 0#8) := by rw [crcHigh_append_crcLow]
      _ = (crcHigh c ^^^ b) ++ crcLow c := by rw [BitVec.xor_append, BitVec.xor_zero]
  rw [crcByte, henter]

theorem crcByte_zero (b : Byte) : crcByte 0#16 b = crcShifts 8 (b ++ 0#8) := by
  rw [crcByte, BitVec.zero_xor, shiftLeft_eight_eq_append, crcLow_setWidth]

/-- The polynomial enters for exactly one of two words with different top bits, and cancels for two top bits 1. -/
theorem crcShift_xor (x y : Word16) : crcShift (x ^^^ y) = crcShift x ^^^ crcShift y := by
  unfold crcShift
  rw [BitVec.getLsbD_xor, BitVec.shiftLeft_xor_distrib]
  cases x.getLsbD 15 <;> cases y.getLsbD 15
  case false.false => rfl
  case false.true => exact BitVec.xor_assoc _ _ _
  case true.false =>
    show x <<< 1 ^^^ y <<< 1 ^^^ Config.crcPoly = x <<< 1 ^^^ Config.crcPoly ^^^ y <<< 1
    ac_rfl
  case true.true =>
    calc x <<< 1 ^^^ y <<< 1
      _ = x <<< 1 ^^^ y <<< 1 ^^^ (Config.crcPoly ^^^ Config.crcPoly) := by rw [BitVec.xor_self, BitVec.xor_zero]
      _ = (x <<< 1 ^^^ Config.crcPoly) ^^^ (y <<< 1 ^^^ Config.crcPoly) := by ac_rfl

theorem crcShifts_xor (n : Nat) (x y : Word16) : crcShifts n (x ^^^ y) = crcShifts n x ^^^ crcShifts n y := by
  induction n generalizing x y with
  | zero => rfl
  | succ n ih => rw [crcShifts, crcShift_xor, ih]; rfl

/-- As long as no 1 reaches bit 15, the polynomial does not enter. -/
theorem crcShifts_of_small (n : Nat) (c : Word16) (h : c.toNat * 2 ^ n < 2 ^ 16) : crcShifts n c = c <<< n := by
  induction n generalizing c with
  | zero => exact (BitVec.shiftLeft_zero c).symm
  | succ n ih =>
    have hrest : c.toNat * 2 * 2 ^ n < 2 ^ 16 := by rwa [Nat.mul_assoc, ← Nat.pow_succ']
    have hfit : c.toNat * 2 < 2 ^ 16 := (Nat.le_mul_of_pos_right _ (Nat.two_pow_pos n)).trans_lt hrest
    have hdouble : (c <<< 1).toNat = c.toNat * 2 := by
      rw [BitVec.toNat_shiftLeft, Nat.shiftLeft_eq, Nat.pow_one, Nat.mod_eq_of_lt hfit]
    have hbit : c.getLsbD 15 = false := Nat.testBit_lt_two_pow (by omega)
    have hshift : crcShift c = c <<< 1 := by simp only [crcShift, hbit, Bool.false_eq_true, if_false]
    rw [crcShifts, hshift, ih _ (by rwa [hdouble]), ← BitVec.shiftLeft_add, Nat.add_comm]

theorem crcShifts_low_byte (low : Byte) : crcShifts 8 (0#8 ++ low) = low ++ 0#8 := by
  have hvalue : (0#8 ++ low).toNat = low.toNat := by
    rw [BitVec.toNat_append, BitVec.toNat_zero, Nat.zero_shiftLeft, Nat.zero_or]
  have hsmall : (0#8 ++ low).toNat * 2 ^ 8 < 2 ^ 16 := by rw [hvalue]; omega
  rw [crcShifts_of_small 8 _ hsmall, shiftLeft_eight_eq_append, crcLow_append]

/-- By linearity, the step splits into that of the high half over an empty remainder, and the low half moved up. -/
theorem crcByte_eq_shiftLeft_xor (c : Word16) (b : Byte) :
    crcByte c b = (c <<< 8) ^^^ crcByte 0#16 (crcHigh c ^^^ b) := by
  have hsplit : (crcHigh c ^^^ b) ++ crcLow c = (0#8 ++ crcLow c) ^^^ ((crcHigh c ^^^ b) ++ 0#8) := by
    rw [BitVec.xor_append, BitVec.zero_xor, BitVec.xor_zero]
  calc crcByte c b
    _ = crcShifts 8 ((0#8 ++ crcLow c) ^^^ ((crcHigh c ^^^ b) ++ 0#8)) := by rw [crcByte_eq_crcShifts, hsplit]
    _ = (crcLow c ++ 0#8) ^^^ crcShifts 8 ((crcHigh c ^^^ b) ++ 0#8) := by rw [crcShifts_xor, crcShifts_low_byte]
    _ = (c <<< 8) ^^^ crcByte 0#16 (crcHigh c ^^^ b) := by rw [← shiftLeft_eight_eq_append, crcByte_zero]

/-- R34: `n` entries of the table from index `start`, computed by the bit-serial step. -/
def crcEntries (start n : Nat) : List Word16 :=
  (List.range' start n).map fun i => crcByte 0#16 (BitVec.ofNat 8 i)

theorem crcEntries_append (start m n : Nat) :
    crcEntries start m ++ crcEntries (start + m) n = crcEntries start (m + n) := by
  rw [crcEntries, crcEntries, ← List.map_append, List.range'_append_1, crcEntries]

theorem crcTablePart0_eq : crcTablePart0 = crcEntries 0x00 64 := by decide

theorem crcTablePart1_eq : crcTablePart1 = crcEntries 0x40 64 := by decide

theorem crcTablePart2_eq : crcTablePart2 = crcEntries 0x80 64 := by decide

theorem crcTablePart3_eq : crcTablePart3 = crcEntries 0xC0 64 := by decide

/-- R34: the listed table is the computed one. -/
theorem crcTable_eq_crcEntries : crcTable = crcEntries 0 256 := by
  rw [crcTable, crcTablePart0_eq, crcTablePart1_eq, crcTablePart2_eq, crcTablePart3_eq,
    crcEntries_append, crcEntries_append, crcEntries_append]

theorem crcTableAt_eq_crcByte (i : Byte) : crcTableAt i = crcByte 0#16 i := by
  have hlt : i.toNat < 256 := i.isLt
  simp [crcTableAt, crcTable_eq_crcEntries, crcEntries, hlt]

/-- Settles O8: the low half moves up, and what the other half makes of an empty remainder is its table entry. -/
theorem crcTableFormIsTheBitSerialStep : Obligations.CrcTableFormIsTheBitSerialStep := by
  intro c b
  rw [crcByte_eq_shiftLeft_xor, ← crcTableAt_eq_crcByte, crcHigh]

end Sys2Proof.Machine
end

section
/-! R123 to R129: what each operation of the CRC unit does, with the spec's examples. -/

namespace Sys2Proof.Machine

/-- R123. -/
theorem exec_crcInit (seed : Word16) (s : State) :
    exec (.crcInit seed) s = .next { s with crc := ⟨seed, seed⟩, response := some (.ok .none) } := rfl

/-- R124. -/
theorem exec_crcCalc (bytes : List Byte) (s : State) :
    exec (.crcCalc bytes) s = .next { s with response := some (.ok (.crc (crcSeq s.crc.current bytes))) } := rfl

/-- R125. -/
theorem exec_crcUpdate (bytes : List Byte) (s : State) :
    exec (.crcUpdate bytes) s =
      .next { s with crc := ⟨s.crc.initial, crcSeq s.crc.current bytes⟩,
                     response := some (.ok (.crc (crcSeq s.crc.current bytes))) } := rfl

/-- R126. -/
theorem exec_crcUpdateByte (b : Byte) (s : State) :
    exec (.crcUpdateByte b) s =
      .next { s with crc := ⟨s.crc.initial, crcByte s.crc.current b⟩,
                     response := some (.ok (.crc (crcByte s.crc.current b))) } := rfl

/-- R127. -/
theorem exec_crcReset (s : State) :
    exec .crcReset s = .next { s with crc := ⟨s.crc.initial, s.crc.initial⟩, response := some (.ok .none) } := rfl

/-- R128. -/
theorem exec_crcReseed (seed : Word16) (s : State) :
    exec (.crcReseed seed) s = .next { s with crc := ⟨seed, seed⟩, response := some (.ok .none) } := rfl

/-- R129. -/
theorem exec_crcRead (s : State) :
    exec .crcRead s = .next { s with response := some (.ok (.crc s.crc.current)) } := rfl

/-- R131: the check value. -/
theorem crcSeq_checkBytes : crcSeq 0xFFFF#16 checkBytes = 0x29B1#16 := by
  simp [checkBytes, crcByte, crcShifts, crcShift, Config.crcPoly]

/-- R128: the same bytes from seed 0. -/
theorem crcSeq_zero_checkBytes : crcSeq 0#16 checkBytes = 0x31C3#16 := by
  simp [checkBytes, crcByte, crcShifts, crcShift, Config.crcPoly]

/-- R125: the three sync bytes. -/
theorem crcSeq_syncBytes : crcSeq 0xFFFF#16 [0xA1#8, 0xA1#8, 0xA1#8] = 0xCDB4#16 := by
  simp [crcByte, crcShifts, crcShift, Config.crcPoly]

/-- Settles O1: O40 decodes the written-out seed, and an omitted one is read as CRC_DEFAULT_SEED. -/
theorem crcInitSetsSeedAndRemainder : Obligations.CrcInitSetsSeedAndRemainder := fun seed s =>
  ⟨decodeOfEncodeIsTheInstruction (.crcInit seed) rfl,
    decodeRequest_of_readOperands_some 0x10#8 .crcInit [] _ rfl rfl,
    exec_crcInit seed s,
    (exec_crcInit seed s).trans (exec_crcReseed seed s).symm⟩

/-- Settles O2: the empty sequence leaves the remainder as it is, so `current` is the answer. -/
theorem crcCalcAnswersWithoutWriting : Obligations.CrcCalcAnswersWithoutWriting := fun bytes s =>
  ⟨decodeOfEncodeIsTheInstruction (.crcCalc bytes) rfl,
    exec_crcCalc bytes s,
    exec_crcCalc [] s,
    crcSeq_checkBytes⟩

/-- Settles O3: the empty sequence puts back the `current` that was there. -/
theorem crcUpdateFoldsTheBytesIn : Obligations.CrcUpdateFoldsTheBytesIn := fun bytes s =>
  ⟨decodeOfEncodeIsTheInstruction (.crcUpdate bytes) rfl,
    exec_crcUpdate bytes s,
    exec_crcUpdate [] s,
    crcSeq_syncBytes⟩

/-- Settles O4: the CRC of a one-byte sequence is one byte step. -/
theorem crcUpdateByteIsUpdateWithOneByte : Obligations.CrcUpdateByteIsUpdateWithOneByte := fun b s =>
  ⟨decodeOfEncodeIsTheInstruction (.crcUpdateByte b) rfl,
    exec_crcUpdateByte b s,
    (exec_crcUpdateByte b s).trans (exec_crcUpdate [b] s).symm,
    by decide⟩

/-- Settles O5: O52 gives the repetition; in the example CRC_UPDATE keeps the seed that CRC_RESET brings back. -/
theorem crcResetReturnsToTheSeed : Obligations.CrcResetReturnsToTheSeed := by
  intro s
  refine ⟨decodeOfEncodeIsTheInstruction .crcReset rfl, exec_crcReset s, fun t h => ?repeats, ?seed⟩
  case repeats =>
    obtain ⟨-, hresets⟩ := readsWriteNothingAndResetsRepeat [] 0#16 s t
    exact hresets .crcReset (by simp) h
  case seed =>
    simp only [execAll, exec_crcInit, exec_crcUpdate, exec_crcReset]
    exact ⟨_, rfl, rfl⟩

/-- Settles O6: the interface reads CRC_RESEED only with its one operand. -/
theorem crcReseedSetsBothRegisters : Obligations.CrcReseedSetsBothRegisters := by
  intro seed s
  refine ⟨decodeOfEncodeIsTheInstruction (.crcReseed seed) rfl,
    decodeRequest_of_readOperands_none 0x15#8 .crcReseed [] rfl rfl,
    exec_crcReseed seed s, (exec_crcReseed seed s).trans (exec_crcInit seed s).symm, ?_⟩
  simp only [execAll, exec_crcReseed, exec_crcUpdate, crcSeq_zero_checkBytes]
  exact ⟨_, rfl, rfl⟩

/-- Settles O7: in the example CRC_READ answers the check value that CRC_UPDATE left. -/
theorem crcReadAnswersTheRemainder : Obligations.CrcReadAnswersTheRemainder := by
  intro s
  refine ⟨decodeOfEncodeIsTheInstruction .crcRead rfl, exec_crcRead s, ?_⟩
  simp only [execAll, exec_crcInit, exec_crcUpdate, exec_crcRead, crcSeq_checkBytes]
  exact ⟨_, rfl, rfl⟩

end Sys2Proof.Machine
end

section
/-! R130, R132, R133: continuing a CRC, and the stored CRC. -/

namespace Sys2Proof.Machine

/-- Settles O9: the second CRC_UPDATE starts from the remainder of the first and replaces its answer. -/
theorem crcContinuationLaw : Obligations.CrcContinuationLaw := by
  intro x y c s
  refine ⟨crcSeq_append c x y, ?_⟩
  simp only [execAll, exec_crcUpdate, crcSeq_append]

/-- A remainder's own high byte cancels its high half, so no polynomial enters. -/
theorem crcByte_crcHigh (c : Word16) : crcByte c (crcHigh c) = crcLow c ++ 0#8 := by
  rw [crcByte_eq_crcShifts, BitVec.xor_self, crcShifts_low_byte]

/-- R132, R133: the stored CRC, high byte first, brings the remainder to 0. -/
theorem crcSeq_stored_crc (c : Word16) : crcSeq c [crcHigh c, crcLow c] = 0#16 := by
  have hlow : crcByte (crcLow c ++ 0#8) (crcLow c) = 0#16 := by
    have hcancel := crcByte_crcHigh (crcLow c ++ 0#8)
    rwa [crcHigh_append, crcLow_append] at hcancel
  rw [crcSeq_cons, crcSeq_cons, crcSeq_nil, crcByte_crcHigh, hlow]

/-- Settles O10: the stored CRC continues from the region's own remainder. -/
theorem checkingARegionWithItsCrcAnswersZero : Obligations.CheckingARegionWithItsCrcAnswersZero := by
  intro m s
  have hzero := crcSeq_stored_crc (crcSeq s.crc.current m)
  rw [← crcSeq_append, crcHigh, crcLow] at hzero
  rw [exec_crcCalc, hzero]

end Sys2Proof.Machine
end

section
/-! R151 to R153: what the encoders append, as functions of the data bits. -/

namespace Sys2Proof.Machine

/-- R151's order of the bits: index `k` of the field's cells holds bit `n - 1 - k`. -/
theorem bitsDown_eq_map_range {w : Nat} (v : BitVec w) (n : Nat) :
    bitsDown v n = (List.range n).map (fun k => v.getLsbD (n - 1 - k)) := by
  induction n with
  | zero => rfl
  | succ n ih =>
    simp [bitsDown, ih, List.range_succ_eq_map, Function.comp_def, Nat.sub_sub, Nat.add_comm 1]

/-- The last data bit of a value written top bit first is its bit 0. -/
theorem getLastD_bitsDown {w : Nat} (v : BitVec w) (n : Nat) (last : Bit) :
    (bitsDown v (n + 1)).getLastD last = v.getLsbD 0 := by
  induction n generalizing last with
  | zero => rfl
  | succ n ih => rw [bitsDown, List.getLastD_cons, ih]

/-- R152: the cells that MFM makes of data bits, after the data bit `last`. -/
def mfmCells (last : Bit) : List Bit → List Bit
  | [] => []
  | d :: bits => (!(last || d)) :: d :: mfmCells d bits

/-- A data 1 forces its clock to 0, whatever data bit came before (R152). -/
theorem mfmCells_cons_one (last : Bit) (bits : List Bit) :
    mfmCells last (true :: bits) = false :: true :: mfmCells true bits := by
  rw [mfmCells, Bool.or_true, Bool.not_true]

/-- The clock of a data 0 is 1 only after a data 0 (R152). -/
theorem mfmCells_cons_zero (last : Bit) (bits : List Bit) :
    mfmCells last (false :: bits) = (!last) :: false :: mfmCells false bits := by
  rw [mfmCells, Bool.or_false]

theorem mfmCells_bitsDown {w : Nat} (v : BitVec w) (n : Nat) (last : Bit) :
    mfmCells last (bitsDown v n) = (List.range n).flatMap (fun k =>
      [!((if k = 0 then last else v.getLsbD (n - k)) || v.getLsbD (n - 1 - k)), v.getLsbD (n - 1 - k)]) := by
  induction n generalizing last with
  | zero => rfl
  | succ n ih =>
    have hlast : ∀ k, (if k = 0 then v.getLsbD n else v.getLsbD (n - k)) = v.getLsbD (n - k) := by
      rintro (_ | k) <;> rfl
    simp [bitsDown, mfmCells, ih, List.range_succ_eq_map, List.flatMap_map, Nat.sub_sub, Nat.add_comm 1, hlast]

theorem foldl_mfmBit (bits : List Bit) (bt : BitTrack) :
    bits.foldl mfmBit bt = ⟨bt.cells ++ mfmCells bt.lastDataBit bits, bits.getLastD bt.lastDataBit⟩ := by
  induction bits generalizing bt with
  | nil => simp [mfmCells]
  | cons d bits ih => rw [List.foldl_cons, ih, List.getLastD_cons]; simp [mfmCells]

theorem foldl_fmBit (bits : List Bit) (bt : BitTrack) :
    bits.foldl fmBit bt = ⟨bt.cells ++ bits.flatMap (fun d => [true, d]), bits.getLastD bt.lastDataBit⟩ := by
  induction bits generalizing bt with
  | nil => simp
  | cons d bits ih => rw [List.foldl_cons, ih, List.getLastD_cons]; simp

theorem mfmByte_eq (b : Byte) (bt : BitTrack) :
    mfmByte b bt = ⟨bt.cells ++ mfmCells bt.lastDataBit (byteBits b), b.getLsbD 0⟩ := by
  rw [mfmByte, foldl_mfmBit, byteBits, getLastD_bitsDown]

theorem fmByte_eq (b : Byte) (bt : BitTrack) :
    fmByte b bt = ⟨bt.cells ++ (byteBits b).flatMap (fun d => [true, d]), b.getLsbD 0⟩ := by
  rw [fmByte, foldl_fmBit, byteBits, getLastD_bitsDown]

end Sys2Proof.Machine
end

section
/-! R150 to R154: what each operation of the BitTrack does, with the spec's examples. -/

namespace Sys2Proof.Machine

/-- R150. -/
theorem exec_btReset (s : State) :
    exec .btReset s = .next { s with bt := ⟨[], false⟩, response := some (.ok .none) } := rfl

/-- R151, within the width. -/
theorem exec_btRaw_of_le (pattern : Word32) (nbits : Nat) (s : State) (h : nbits ≤ 32) :
    exec (.btRaw pattern nbits) s =
      .next { s with bt := ⟨s.bt.cells ++ bitsDown pattern nbits, pattern.getLsbD 0⟩,
                     response := some (.ok .none) } :=
  if_neg (Nat.not_lt.mpr h)

/-- R151, R302: over the width. -/
theorem exec_btRaw_of_lt (pattern : Word32) (nbits : Nat) (s : State) (h : 32 < nbits) :
    exec (.btRaw pattern nbits) s =
      .next { s with response := some (.error (.invalidRawWidth nbits)) } :=
  if_pos h

/-- R152. -/
theorem exec_btMfm (b : Byte) (s : State) :
    exec (.btMfm b) s =
      .next { s with bt := ⟨s.bt.cells ++ mfmCells s.bt.lastDataBit (byteBits b), b.getLsbD 0⟩,
                     response := some (.ok .none) } := by
  rw [← mfmByte_eq]
  rfl

/-- R153. -/
theorem exec_btFm (b : Byte) (s : State) :
    exec (.btFm b) s =
      .next { s with bt := ⟨s.bt.cells ++ (byteBits b).flatMap (fun d => [true, d]), b.getLsbD 0⟩,
                     response := some (.ok .none) } := by
  rw [← fmByte_eq]
  rfl

/-- R154. -/
theorem exec_btRead (s : State) :
    exec .btRead s = .next { s with response := some (.ok (.cells s.bt.cells s.bt.lastDataBit)) } := rfl

/-- Settles O12: BT_RESET puts the reset BitTrack in place and ends OK. -/
theorem btResetClearsTheBitTrack : Obligations.BtResetClearsTheBitTrack := fun s =>
  ⟨decodeOfEncodeIsTheInstruction .btReset rfl, exec_btReset s⟩

/-- Settles O13: an omitted width is read as 16; the width decides between the field's bits and the error. -/
theorem btRawAppendsTheField : Obligations.BtRawAppendsTheField := by
  intro pattern nbits s
  refine ⟨decodeOfEncodeIsTheInstruction (.btRaw pattern nbits) rfl,
    decodeRequest_of_readOperands_some 0x21#8 .btRaw _ _ rfl (congrArg (Option.map _) (readWord_toNat pattern)),
    fun hfits => ?_, exec_btRaw_of_lt pattern nbits s⟩
  rw [exec_btRaw_of_le pattern nbits s hfits, bitsDown_eq_map_range]

/-- Settles O14: each clock looks at the data bit before it, which for the first is the BitTrack's. -/
theorem btMfmAppendsClockAndData : Obligations.BtMfmAppendsClockAndData := by
  intro b s
  refine ⟨decodeOfEncodeIsTheInstruction (.btMfm b) rfl, ?_⟩
  rw [exec_btMfm, byteBits, mfmCells_bitsDown]

/-- Settles O15: the clocks look at no data bit. -/
theorem btFmAppendsOnesAndData : Obligations.BtFmAppendsOnesAndData := by
  intro b s
  refine ⟨decodeOfEncodeIsTheInstruction (.btFm b) rfl, ?_⟩
  rw [exec_btFm, byteBits, bitsDown_eq_map_range, List.flatMap_map]

/-- Settles O16: in the example BT_READ answers the cells that BT_MFM put into the cleared BitTrack. -/
theorem btReadAnswersTheCells : Obligations.BtReadAnswersTheCells := by
  intro s
  refine ⟨decodeOfEncodeIsTheInstruction .btRead rfl, exec_btRead s, ?_⟩
  simp only [execAll, exec_btReset, exec_btMfm, exec_btRead]
  exact ⟨_, rfl, rfl⟩

end Sys2Proof.Machine
end

section
/-! R156 to R158: the sync marks against MFM, and the run lengths of MFM cells. -/

namespace Sys2Proof.Machine

/-- R156: bit 7 of 0xA1 is 1, so the data bit before it does not matter. -/
theorem mfmCells_A1 (last : Bit) : mfmCells last (byteBits 0xA1#8) = bitsDown 0x44A9#16 16 :=
  mfmCells_cons_one last (bitsDown 0xA1#8 7)

/-- R157: bit 7 of 0xC2 is 1, so the data bit before it does not matter. -/
theorem mfmCells_C2 (last : Bit) : mfmCells last (byteBits 0xC2#8) = bitsDown 0x52A4#16 16 :=
  mfmCells_cons_one last (bitsDown 0xC2#8 7)

/-- Two streams whose second part differs in the one 1 cell `j` that was taken out. -/
theorem getElem?_append_set_ne_iff (start cells : List Bit) (j k : Nat) (hj : cells[j]? = some true) :
    (start ++ cells.set j false)[k]? ≠ (start ++ cells)[k]? ↔ k = start.length + j := by
  have hcell : (start ++ cells)[start.length + j]? = some true := by
    rw [List.getElem?_append_right (Nat.le_add_right _ _), Nat.add_sub_cancel_left, hj]
  have hset : start ++ cells.set j false = (start ++ cells).set (start.length + j) false := by
    rw [List.set_append_right _ _ (Nat.le_add_right _ _), Nat.add_sub_cancel_left]
  rw [hset]
  constructor
  · intro hne
    by_contra hk
    exact hne (List.getElem?_set_ne (Ne.symm hk))
  · rintro rfl
    rw [List.getElem?_set_self', hcell]
    simp

/-- Settles O17: each mark is the MFM pattern with one 1 cell cleared, appended to the same cells. -/
theorem syncMarksOmitOneClock : Obligations.SyncMarksOmitOneClock := by
  intro s
  have hA1 := exec_btMfm 0xA1#8 s
  have hC2 := exec_btMfm 0xC2#8 s
  rw [mfmCells_A1] at hA1
  rw [mfmCells_C2] at hC2
  exact ⟨_, _, _, _,
    exec_btRaw_of_le 0x4489#32 16 s (by decide), hA1, exec_btRaw_of_le 0x5224#32 16 s (by decide), hC2,
    rfl, rfl, rfl, rfl,
    fun k => getElem?_append_set_ne_iff s.bt.cells (bitsDown 0x44A9#16 16) 10 k rfl,
    fun k => getElem?_append_set_ne_iff s.bt.cells (bitsDown 0x52A4#16 16) 8 k rfl,
    rfl, rfl, rfl, rfl⟩

/-- BT_MFM alone encodes the bytes' data bits one after the other. -/
theorem execAll_btMfm (bytes : List Byte) (s : State) :
    ∃ t, execAll (bytes.map .btMfm) s = .next t ∧ t.bt = (bytes.flatMap byteBits).foldl mfmBit s.bt := by
  induction bytes generalizing s with
  | nil => exact ⟨s, rfl, rfl⟩
  | cons b bytes ih =>
    obtain ⟨t, hrun, hbt⟩ := ih ((s.withBt (mfmByte b s.bt)).withResponse (.ok .none))
    refine ⟨t, hrun, ?_⟩
    rw [hbt, List.flatMap_cons, List.foldl_append]
    rfl

theorem noAdjacentOnes_cons_cons (a b : Bit) (cells : List Bit) :
    noAdjacentOnes (a :: b :: cells) = (!(a && b) && noAdjacentOnes (b :: cells)) := by
  cases a <;> cases b <;> rfl

theorem noAdjacentOnes_of_cons (a : Bit) (cells : List Bit) (h : noAdjacentOnes (a :: cells) = true) :
    noAdjacentOnes cells = true := by
  cases cells with
  | nil => rfl
  | cons b cells =>
    rw [noAdjacentOnes_cons_cons, Bool.and_eq_true] at h
    obtain ⟨-, hcells⟩ := h
    exact hcells

/-- R158: a clock is 0 next to a data 1, also next to the data bit before the first cell. -/
theorem noAdjacentOnes_cons_mfmCells (last : Bit) (bits : List Bit) :
    noAdjacentOnes (last :: mfmCells last bits) = true := by
  induction bits generalizing last with
  | nil => cases last <;> rfl
  | cons d bits ih =>
    have hbefore : (last && !(last || d)) = false := by cases last <;> rfl
    have hafter : (!(last || d) && d) = false := by cases d <;> simp
    rw [mfmCells, noAdjacentOnes_cons_cons, noAdjacentOnes_cons_cons, hbefore, hafter, ih d]
    rfl

theorem zeroRunsAtMost3_cons_one_iff (sinceOne : Option Nat) (cells : List Bit) :
    zeroRunsAtMost3 sinceOne (true :: cells) = true ↔
      (∀ n ∈ sinceOne, n ≤ 3) ∧ zeroRunsAtMost3 (some 0) cells = true := by
  cases sinceOne <;> simp [zeroRunsAtMost3]

theorem zeroRunsAtMost3_cons_zero (sinceOne : Option Nat) (cells : List Bit) :
    zeroRunsAtMost3 sinceOne (false :: cells) = zeroRunsAtMost3 (sinceOne.map (· + 1)) cells := rfl

/-- R158: after a data bit the run holds at most 2 zeros, and after a data 1 none. -/
theorem zeroRunsAtMost3_mfmCells (bits : List Bit) (last : Bit) (sinceOne : Option Nat)
    (hrun : ∀ n ∈ sinceOne, n ≤ if last then 0 else 2) :
    zeroRunsAtMost3 sinceOne (mfmCells last bits) = true := by
  induction bits generalizing last sinceOne with
  | nil => rfl
  | cons d bits ih =>
    match last, d with
    | last, true =>
      have hclock : ∀ n ∈ sinceOne.map (· + 1), n ≤ 3 := by
        intro n hn
        obtain ⟨m, hm, rfl⟩ := Option.mem_map.mp hn
        have hle : m ≤ 2 := (hrun m hm).trans (by split <;> decide)
        exact Nat.succ_le_succ hle
      rw [mfmCells_cons_one, zeroRunsAtMost3_cons_zero, zeroRunsAtMost3_cons_one_iff]
      exact ⟨hclock, ih true (some 0) (by simp)⟩
    | false, false =>
      rw [mfmCells_cons_zero, Bool.not_false, zeroRunsAtMost3_cons_one_iff, zeroRunsAtMost3_cons_zero]
      exact ⟨fun n hn => (hrun n hn).trans (by decide), ih false (some 1) (by simp)⟩
    | true, false =>
      rw [mfmCells_cons_zero, Bool.not_true, zeroRunsAtMost3_cons_zero, zeroRunsAtMost3_cons_zero]
      refine ih false _ fun n hn => ?_
      simp only [Option.map_map, Option.mem_map] at hn
      obtain ⟨m, hm, rfl⟩ := hn
      exact Nat.add_le_add_right (hrun m hm) 2

/-- Settles O18: the BitTrack started empty, so its cells are those of MFM, which keep both laws. -/
theorem mfmRunLengthLaws : Obligations.MfmRunLengthLaws := by
  refine ⟨fun bytes s hempty => ?mfm, fun p hp => ?sync⟩
  case mfm =>
    obtain ⟨t, hrun, hbt⟩ := execAll_btMfm bytes s
    have hcells : t.bt.cells = mfmCells s.bt.lastDataBit (bytes.flatMap byteBits) := by
      rw [hbt, foldl_mfmBit, hempty, List.nil_append]
    refine ⟨t, hrun, ?_⟩
    rw [hcells]
    exact ⟨noAdjacentOnes_of_cons _ _ (noAdjacentOnes_cons_mfmCells _ _), zeroRunsAtMost3_mfmCells _ _ none nofun⟩
  case sync =>
    obtain rfl | rfl := List.mem_pair.mp hp <;> exact ⟨rfl, rfl⟩

end Sys2Proof.Machine
end

section
/-! R181, R182, R185: the shift register of the lowering against the cells it has seen. -/

namespace Sys2Proof.Machine

theorem cellAt_natCast (cells : List Bit) (n : Nat) : cellAt cells n = cells.getD n false :=
  if_neg (by omega)

theorem cellAt_of_neg (cells : List Bit) (j : Int) (h : j < 0) : cellAt cells j = false := if_pos h

/-- The shift register once the cells before `n` are shifted in (R42, R180), with zeros past the last cell. -/
def shiftWindow (cells : List Bit) : Nat → BitVec 8
  | 0 => 0#8
  | n + 1 => (shiftWindow cells n <<< 1) ||| (BitVec.ofBool (cells.getD n false)).setWidth 8

/-- R181: bit `k` of the shift register is the cell seen `k` positions before the latest. -/
theorem getLsbD_shiftWindow (cells : List Bit) (n k : Nat) (hk : k < 8) :
    (shiftWindow cells n).getLsbD k = cellAt cells (n - 1 - k) := by
  induction n generalizing k with
  | zero => rw [cellAt_of_neg _ _ (by omega)]; simp [shiftWindow]
  | succ n ih =>
    cases k with
    | zero =>
      have hcell : ((n + 1 : Nat) - 1 - (0 : Nat) : Int) = n := by omega
      rw [hcell, cellAt_natCast]
      simp [shiftWindow]
    | succ k =>
      have hcell : ((n + 1 : Nat) - 1 - (k + 1 : Nat) : Int) = n - 1 - k := by omega
      rw [hcell, ← ih k (by omega), shiftWindow, BitVec.getLsbD_or, BitVec.getLsbD_shiftLeft, BitVec.getLsbD_setWidth]
      simp [hk]

/-- R182: the two patterns, bit 4 the earliest cell. -/
theorem precompMul_eq_of_bits (w : BitVec 5) :
    precompMul w =
      if [w.getLsbD 4, w.getLsbD 3, w.getLsbD 2, w.getLsbD 1, w.getLsbD 0] = [false, false, true, false, true] then 1
      else if [w.getLsbD 4, w.getLsbD 3, w.getLsbD 2, w.getLsbD 1, w.getLsbD 0] = [true, false, true, false, false]
        then -1
      else 0 := by
  revert w
  decide

/-- R181: the cell judged is two positions behind the latest one. -/
theorem getLsbD_shiftWindow_judged (cells : List Bit) (n : Nat) :
    (shiftWindow cells (n + 3)).getLsbD 2 = cells.getD n false := by
  have hcell : ((n + 3 : Nat) - 1 - (2 : Nat) : Int) = n := by omega
  rw [getLsbD_shiftWindow _ _ _ (by decide), hcell, cellAt_natCast]

theorem precompMul_shiftWindow (cells : List Bit) (n : Nat) :
    precompMul ((shiftWindow cells (n + 3)).extractLsb' 0 5) = cellMul cells n := by
  have hbit : ∀ k : Nat, k < 5 →
      ((shiftWindow cells (n + 3)).extractLsb' 0 5).getLsbD k = cellAt cells (n + (2 - k)) := by
    intro k hk
    have hcell : ((n + 3 : Nat) - 1 - k : Int) = n + (2 - k) := by omega
    rw [BitVec.getLsbD_extractLsb', Nat.zero_add, getLsbD_shiftWindow _ _ _ (by omega), hcell]
    simp [hk]
  rw [precompMul_eq_of_bits, hbit 4 (by decide), hbit 3 (by decide), hbit 2 (by decide), hbit 1 (by decide),
    hbit 0 (by decide)]
  simp [cellMul, Int.sub_eq_add_neg]

/-- R185's wait of the transition at cell `i`. -/
def waitAt (cellTime precomp : Nat) (cells : List Bit) (i : Nat) : Int :=
  ((zerosBefore cells i + 1) * halfCell cellTime : Nat) + cellMul cells i * precomp

/-- R185's waits of the transitions before cell `n`. -/
def waitsBefore (cellTime precomp : Nat) (cells : List Bit) (n : Nat) : List Int :=
  ((List.range n).filter (fun i => cells.getD i false)).map (waitAt cellTime precomp cells)

theorem waitsByCell_eq_waitsBefore (cellTime precomp : Nat) (cells : List Bit) :
    waitsByCell cellTime precomp cells = waitsBefore cellTime precomp cells cells.length := rfl

theorem waitsBefore_succ_of_one (cellTime precomp : Nat) (cells : List Bit) (n : Nat) (h : cells.getD n false = true) :
    waitsBefore cellTime precomp cells (n + 1) =
      waitsBefore cellTime precomp cells n ++ [waitAt cellTime precomp cells n] := by
  simp only [waitsBefore, List.range_succ, List.filter_append, List.filter_singleton, h, List.map_append]
  rfl

theorem waitsBefore_succ_of_zero (cellTime precomp : Nat) (cells : List Bit) (n : Nat)
    (h : cells.getD n false = false) :
    waitsBefore cellTime precomp cells (n + 1) = waitsBefore cellTime precomp cells n := by
  simp only [waitsBefore, List.range_succ, List.filter_append, List.filter_singleton, h, cond_false,
    List.append_nil]

/-- The working registers once the cells before `n` are seen (R42): the cells before `n - 2` are judged. -/
def lowerRegsAt (cellTime precomp : Nat) (cells : List Bit) (n : Nat) : LowerRegs :=
  ⟨n, shiftWindow cells n, zerosBefore cells (n - 2), waitsBefore cellTime precomp cells (n - 2)⟩

/-- Past the warm-up, an iteration judges cell `n` as it shifts in cell `n + 2`. -/
theorem lowerCell_lowerRegsAt_judged (cellTime precomp : Nat) (cells : List Bit) (n : Nat) :
    lowerCell (halfCell cellTime) precomp (lowerRegsAt cellTime precomp cells (n + 2)) (cells.getD (n + 2) false) =
      if cells.getD n false then
        ⟨n + 3, shiftWindow cells (n + 3), 0,
          waitsBefore cellTime precomp cells n ++ [waitAt cellTime precomp cells n]⟩
      else ⟨n + 3, shiftWindow cells (n + 3), zerosBefore cells n + 1, waitsBefore cellTime precomp cells n⟩ := by
  have hwait : waitAt cellTime precomp cells n =
      halfCell cellTime + zerosBefore cells n * halfCell cellTime +
        precompMul ((shiftWindow cells (n + 3)).extractLsb' 0 5) * precomp := by
    rw [precompMul_shiftWindow, waitAt]
    push_cast
    ring
  rw [hwait, ← getLsbD_shiftWindow_judged cells n]
  have hwarm : ¬ (lowerRegsAt cellTime precomp cells (n + 2)).pos < 2 := Nat.not_lt.mpr (Nat.le_add_left 2 n)
  rw [lowerCell]
  exact if_neg hwarm

theorem lowerCell_lowerRegsAt (cellTime precomp : Nat) (cells : List Bit) (n : Nat) :
    lowerCell (halfCell cellTime) precomp (lowerRegsAt cellTime precomp cells n) (cells.getD n false) =
      lowerRegsAt cellTime precomp cells (n + 1) := by
  match n with
  | 0 | 1 => rfl
  | n + 2 =>
    rw [lowerCell_lowerRegsAt_judged]
    cases hcell : cells.getD n false with
    | true =>
      simp only [lowerRegsAt, Nat.reduceSubDiff, zerosBefore, hcell, waitsBefore_succ_of_one, if_true]
    | false =>
      simp only [lowerRegsAt, Nat.reduceSubDiff, zerosBefore, hcell, waitsBefore_succ_of_zero, Bool.false_eq_true,
        if_false]

theorem foldl_lowerCell (cellTime precomp : Nat) (cells : List Bit) (n : Nat) :
    ((List.range n).map (fun i => cells.getD i false)).foldl (lowerCell (halfCell cellTime) precomp) lowerStart =
      lowerRegsAt cellTime precomp cells n := by
  induction n with
  | zero => rfl
  | succ n ih =>
    rw [List.range_succ, List.map_append, List.foldl_append, ih]
    exact lowerCell_lowerRegsAt cellTime precomp cells n

theorem map_getD_range (cells : List Bit) (n : Nat) :
    (List.range (cells.length + n)).map (fun i => cells.getD i false) = cells ++ List.replicate n false := by
  induction cells with
  | nil => simp
  | cons c cells ih =>
    rw [List.length_cons, Nat.add_right_comm, List.range_succ_eq_map, List.map_cons, List.map_map]
    exact congrArg (c :: ·) ih

/-- Zeros past the last cell leave the waits as they are (R191): the lowering's own pads and any that stood there. -/
theorem waitsBefore_length_add (cellTime precomp : Nat) (cells : List Bit) (n : Nat) :
    waitsBefore cellTime precomp cells (cells.length + n) = waitsByCell cellTime precomp cells := by
  induction n with
  | zero => rfl
  | succ n ih =>
    have hpast : cells.getD (cells.length + n) false = false := List.getD_eq_default _ _ (Nat.le_add_right _ n)
    rw [← Nat.add_assoc, waitsBefore_succ_of_zero _ _ _ _ hpast, ih]

theorem lowerWaits_append_zeros (cellTime precomp : Nat) (cells : List Bit) (n : Nat) :
    lowerWaits cellTime precomp (cells ++ List.replicate n false) = waitsByCell cellTime precomp cells := by
  have hpads : cells ++ List.replicate n false ++ [false, false] =
      (List.range (cells.length + (n + 2))).map (fun i => cells.getD i false) := by
    rw [map_getD_range, List.replicate_add, List.append_assoc]
    rfl
  rw [lowerWaits, hpads, foldl_lowerCell]
  exact waitsBefore_length_add cellTime precomp cells n

/-- Settles O19: after every cell the working registers are those of the cells seen, and the two pads bring the
last cell to its turn. -/
theorem loweringWaitsCellByCell : Obligations.LoweringWaitsCellByCell := by
  intro cellTime precomp cells
  have hlower := lowerWaits_append_zeros cellTime precomp cells 0
  rwa [List.replicate_zero, List.append_nil] at hlower

end Sys2Proof.Machine
end

section
/-! R183, R185: how many waits there are, and when one is negative. -/

namespace Sys2Proof.Machine

theorem mem_waitsByCell_iff (cellTime precomp : Nat) (cells : List Bit) (t : Int) :
    t ∈ waitsByCell cellTime precomp cells ↔
      ∃ i, cells.getD i false = true ∧ waitAt cellTime precomp cells i = t := by
  have hbound : ∀ i, cells.getD i false = true → i < cells.length := fun i hone =>
    Nat.lt_of_not_le fun hle => absurd (List.getD_eq_default cells false hle) (by rw [hone]; decide)
  simp only [waitsByCell_eq_waitsBefore, waitsBefore, List.mem_map, List.mem_filter, List.mem_range]
  exact exists_congr fun i => and_congr_left' ⟨And.right, fun hone => ⟨hbound i hone, hone⟩⟩

theorem length_waitsByCell (cellTime precomp : Nat) (cells : List Bit) :
    (waitsByCell cellTime precomp cells).length = cells.count true := by
  have hcells := map_getD_range cells 0
  rw [List.replicate_zero, List.append_nil, Nat.add_zero] at hcells
  conv_rhs => rw [← hcells, List.count_eq_countP, List.countP_map, List.countP_eq_length_filter]
  rw [waitsByCell_eq_waitsBefore, waitsBefore, List.length_map]
  simp only [Function.comp_def, beq_true]

theorem waitsByCell_of_no_one (cellTime precomp : Nat) (cells : List Bit) (h : true ∉ cells) :
    waitsByCell cellTime precomp cells = [] := by
  rw [← List.length_eq_zero_iff, length_waitsByCell, List.count_eq_zero]
  exact h

/-- R182: the pattern that pulls a transition forward. -/
theorem cellMul_eq_neg_one_iff (cells : List Bit) (i : Int) :
    cellMul cells i = -1 ↔
      [cellAt cells (i - 2), cellAt cells (i - 1), cellAt cells i, cellAt cells (i + 1), cellAt cells (i + 2)] =
        [true, false, true, false, false] := by
  unfold cellMul
  split
  case isTrue hlate => rw [hlate]; decide
  case isFalse => split <;> simp [*]

theorem neg_one_le_cellMul (cells : List Bit) (i : Int) : -1 ≤ cellMul cells i := by
  unfold cellMul
  split
  · decide
  · split <;> decide

/-- A window 1 0 1 0 0 lies around a 1 cell that has one 0 before it. -/
theorem exists_cell_of_cellMul_eq_neg_one (cells : List Bit) (i : Int) (h : cellMul cells i = -1) :
    ∃ n : Nat, i = n ∧ cells.getD n false = true ∧ zerosBefore cells n = 1 := by
  rw [cellMul_eq_neg_one_iff] at h
  simp only [List.cons.injEq, and_true] at h
  obtain ⟨hfirst, hgap, hone, -, -⟩ := h
  have hpos : 0 ≤ i - 2 := Int.not_lt.mp fun hneg => by
    rw [cellAt_of_neg cells _ hneg] at hfirst
    cases hfirst
  obtain ⟨m, hm⟩ := Int.eq_ofNat_of_zero_le hpos
  obtain rfl : i = (m + 2 : Nat) := by omega
  rw [hm, cellAt_natCast] at hfirst
  have hgapCell : ((m + 2 : Nat) - 1 : Int) = (m + 1 : Nat) := by omega
  rw [hgapCell, cellAt_natCast] at hgap
  rw [cellAt_natCast] at hone
  exact ⟨m + 2, rfl, hone, by simp only [zerosBefore, hgap, hfirst, if_true, Bool.false_eq_true, if_false]⟩

/-- R183: the shortest wait. -/
theorem waitAt_of_cellMul_eq_neg_one (cellTime precomp n : Nat) (cells : List Bit) (h : cellMul cells n = -1) :
    waitAt cellTime precomp cells n = 2 * (cellTime / 2 : Nat) - precomp := by
  obtain ⟨m, hm, -, hzeros⟩ := exists_cell_of_cellMul_eq_neg_one cells n h
  obtain rfl : n = m := Int.ofNat_inj.mp hm
  rw [waitAt, h, hzeros, halfCell]
  push_cast
  ring

theorem waitAt_nonneg (cellTime precomp n : Nat) (cells : List Bit) (h : cellMul cells n ≠ -1) :
    0 ≤ waitAt cellTime precomp cells n := by
  have hmul : 0 ≤ cellMul cells n := by
    have := neg_one_le_cellMul cells n
    omega
  exact add_nonneg (Int.natCast_nonneg _) (mul_nonneg hmul (Int.natCast_nonneg _))

/-- R183: what a negative wait is. -/
theorem window_and_value_of_negative_wait (cellTime precomp : Nat) (cells : List Bit) (t : Int)
    (ht : t ∈ waitsByCell cellTime precomp cells) (hneg : t < 0) :
    (∃ i, cellMul cells i = -1) ∧ 2 * (cellTime / 2) < precomp ∧
      t = 2 * (cellTime / 2 : Nat) - (precomp : Int) := by
  obtain ⟨n, -, rfl⟩ := (mem_waitsByCell_iff _ _ _ _).mp ht
  have hwindow : cellMul cells n = -1 := by
    by_contra h
    exact absurd (waitAt_nonneg cellTime precomp n cells h) (Int.not_le.mpr hneg)
  have hwait := waitAt_of_cellMul_eq_neg_one cellTime precomp n cells hwindow
  exact ⟨⟨n, hwindow⟩, by omega, hwait⟩

/-- R183: the window 1 0 1 0 0 makes its wait negative under a large precomp. -/
theorem exists_negative_wait (cellTime precomp : Nat) (cells : List Bit) (hwindow : ∃ i, cellMul cells i = -1)
    (hlarge : 2 * (cellTime / 2) < precomp) : ∃ t ∈ waitsByCell cellTime precomp cells, t < 0 := by
  obtain ⟨i, hi⟩ := hwindow
  obtain ⟨n, rfl, hone, -⟩ := exists_cell_of_cellMul_eq_neg_one cells i hi
  refine ⟨_, (mem_waitsByCell_iff _ _ _ _).mpr ⟨n, hone, rfl⟩, ?_⟩
  rw [waitAt_of_cellMul_eq_neg_one _ _ _ _ hi]
  omega

/-- R183: what BT_TO_TRACK answers where it raises. -/
theorem window_and_value_of_first_negative_wait (cellTime precomp : Nat) (cells : List Bit) (time : Int)
    (h : (lowerWaits cellTime precomp cells).find? (fun w => decide (w < 0)) = some time) :
    (∃ i, cellMul cells i = -1) ∧ 2 * (cellTime / 2) < precomp ∧
      time = 2 * (cellTime / 2 : Nat) - (precomp : Int) := by
  rw [loweringWaitsCellByCell] at h
  have hneg : time < 0 := by simpa using List.find?_some h
  exact window_and_value_of_negative_wait cellTime precomp cells time (List.mem_of_find?_eq_some h) hneg

/-- Settles O21: every negative wait is the same one, so the first of them is the value answered. -/
theorem btToTrackRaisesOnANegativeWait : Obligations.BtToTrackRaisesOnANegativeWait := by
  intro cellTime precomp s
  refine ⟨⟨fun ⟨hwindow, hlarge⟩ => exists_negative_wait _ _ _ hwindow hlarge, fun ⟨t, ht, hneg⟩ => ?_⟩,
    fun hwindow hlarge => ?raises, fun t z h hresponse => ?only⟩
  · obtain ⟨hwindow, hlarge, -⟩ := window_and_value_of_negative_wait cellTime precomp _ t ht hneg
    exact ⟨hwindow, hlarge⟩
  case raises =>
    obtain ⟨time, hfirst, hraise⟩ | ⟨hnonneg, -⟩ := execBtToTrack_cases cellTime precomp s
    · obtain ⟨-, -, rfl⟩ := window_and_value_of_first_negative_wait cellTime precomp _ time hfirst
      exact hraise
    · obtain ⟨t, ht, hneg⟩ := exists_negative_wait cellTime precomp _ hwindow hlarge
      rw [← loweringWaitsCellByCell] at ht
      exact absurd (hnonneg t ht) (Int.not_le.mpr hneg)
  case only =>
    obtain ⟨time, hfirst, rfl⟩ | ⟨-, rfl⟩ := execBtToTrack_next_cases cellTime precomp s t h
    · cases hresponse
      exact window_and_value_of_first_negative_wait cellTime precomp _ z hfirst
    · cases hresponse

end Sys2Proof.Machine
end

section
/-! R212, R218: the bytes of one flux, in closed form. -/

namespace Sys2Proof.Machine

theorem fluxClosedForm_zero (gate : Gate) : fluxClosedForm gate 0 = [0x02#8] := rfl

theorem fluxClosedForm_of_pos (gate : Gate) (time : Nat) (h : 0 < time) :
    fluxClosedForm gate time =
      List.replicate ((time - 1) / 129) (waitTimerByte Config.timerWaitMax) ++
        [if 2 ≤ time - 129 * ((time - 1) / 129) then waitTimerByte (time - 129 * ((time - 1) / 129))
          else gateByte gate] ++ [transitionByte] := by
  cases gate <;> exact if_neg h.ne'

/-- R218: a wait that fits one byte. -/
theorem fluxClosedForm_of_le (gate : Gate) (time : Nat) (hpos : 0 < time) (hmax : time ≤ Config.timerWaitMax) :
    fluxClosedForm gate time = [if 2 ≤ time then waitTimerByte time else gateByte gate] ++ [transitionByte] := by
  have hquot : (time - 1) / 129 = 0 := Nat.div_eq_of_lt (by simp only [Config.timerWaitMax] at hmax; omega)
  rw [fluxClosedForm_of_pos gate time hpos, hquot]
  rfl

/-- R218: a wait over 129 clocks starts with a full wait-timer byte. -/
theorem fluxClosedForm_of_lt (gate : Gate) (time : Nat) (h : Config.timerWaitMax < time) :
    fluxClosedForm gate time =
      waitTimerByte Config.timerWaitMax :: fluxClosedForm gate (time - Config.timerWaitMax) := by
  have hlong : 129 < time := h
  have hquot : (time - 1) / 129 = (time - 129 - 1) / 129 + 1 := by omega
  have hrem : time - 129 * ((time - 129 - 1) / 129 + 1) = time - 129 - 129 * ((time - 129 - 1) / 129) := by omega
  rw [fluxClosedForm_of_pos gate time (by omega), fluxClosedForm_of_pos gate _ (Nat.sub_pos_of_lt h), hquot, hrem]
  rfl

/-- With fuel enough, the wait loop and the TRANSITION are the closed form. -/
theorem waitBytes_append_transitionByte (gate : Gate) (fuel time : Nat) (h : time ≤ fuel) :
    waitBytes gate fuel time ++ [transitionByte] = fluxClosedForm gate time := by
  induction fuel generalizing time with
  | zero => obtain rfl := Nat.le_zero.mp h; rfl
  | succ fuel ih =>
    rw [waitBytes]
    split
    case isTrue hlong =>
      have hrest : time - Config.timerWaitMax ≤ fuel := by simp only [Config.timerWaitMax]; omega
      rw [List.cons_append, ih _ hrest, fluxClosedForm_of_lt gate time hlong]
    case isFalse hshort =>
      split
      case isTrue h2 => rw [fluxClosedForm_of_le gate time (by omega) (by omega), if_pos h2]
      case isFalse h2 =>
        split
        case isTrue h1 => rw [fluxClosedForm_of_le gate time (by omega) (by omega), if_neg h2]
        case isFalse h1 =>
          obtain rfl : time = 0 := by omega
          rfl

theorem fluxBytes_eq_fluxClosedForm (gate : Gate) (time : Nat) : fluxBytes gate time = fluxClosedForm gate time :=
  waitBytes_append_transitionByte gate time time le_rfl

theorem waitTimerByte_ne_transitionByte (t : Nat) : waitTimerByte t ≠ transitionByte := fun h => by
  have hmark : (waitTimerByte t).getLsbD 7 = true := by simp [waitTimerByte]
  rw [h] at hmark
  exact absurd hmark (by decide)

theorem gateByte_ne_transitionByte (gate : Gate) : gateByte gate ≠ transitionByte := by
  cases gate <;> decide

theorem transitionByte_not_mem_waitBytes (gate : Gate) (fuel time : Nat) :
    transitionByte ∉ waitBytes gate fuel time := by
  induction fuel generalizing time with
  | zero => exact List.not_mem_nil
  | succ fuel ih =>
    rw [waitBytes]
    split
    · exact List.not_mem_cons_of_ne_of_not_mem (waitTimerByte_ne_transitionByte _).symm (ih _)
    · split
      · exact List.not_mem_cons_of_ne_of_not_mem (waitTimerByte_ne_transitionByte _).symm List.not_mem_nil
      · split
        · exact List.not_mem_cons_of_ne_of_not_mem (gateByte_ne_transitionByte _).symm List.not_mem_nil
        · exact List.not_mem_nil

/-- R218: one TRANSITION ends each flux. -/
theorem count_transitionByte_fluxBytes (gate : Gate) (time : Nat) :
    (fluxBytes gate time).count transitionByte = 1 := by
  rw [fluxBytes, List.count_append, List.count_eq_zero.mpr (transitionByte_not_mem_waitBytes gate time time),
    List.count_singleton_self]

end Sys2Proof.Machine
end

section
/-! R180, R187: what BT_TO_TRACK emits. -/

namespace Sys2Proof.Machine

/-- R187: the waits and one clock per transition. -/
theorem emitWaits_timestep (waits : List Int) (tr : Track) (h : ∀ t ∈ waits, 0 ≤ t) :
    (emitWaits waits tr).timestep = tr.timestep + BitVec.ofInt 32 (waits.sum + waits.length) := by
  induction waits generalizing tr with
  | nil => simp
  | cons w ws ih =>
    obtain ⟨hw, hws⟩ := List.forall_mem_cons.mp h
    have hclocks : BitVec.ofNat 32 (w.toNat + 1) = BitVec.ofInt 32 (w + 1) := by
      rw [← BitVec.ofInt_natCast, Int.natCast_add, Int.toNat_of_nonneg hw]
      rfl
    have hsum : (w :: ws).sum + ((w :: ws).length : Int) = w + 1 + (ws.sum + ws.length) := by
      rw [List.sum_cons, List.length_cons]
      push_cast
      ring
    rw [emitWaits_cons, ih _ hws, emitFlux_timestep, hclocks, hsum, BitVec.ofInt_add (w + 1), BitVec.add_assoc]

theorem emitWaits_eq (waits : List Int) (tr : Track) (h : ∀ t ∈ waits, 0 ≤ t) :
    emitWaits waits tr =
      ⟨tr.buffer ++ waits.flatMap (fun t => fluxClosedForm tr.gate t.toNat), tr.gate,
        tr.timestep + BitVec.ofInt 32 (waits.sum + waits.length)⟩ := by
  simp only [← fluxBytes_eq_fluxClosedForm]
  rw [← emitWaits_buffer, ← emitWaits_timestep waits tr h, ← emitWaits_gate waits tr]

theorem count_transitionByte_emitWaits (waits : List Int) (tr : Track) :
    (emitWaits waits tr).buffer.count transitionByte = tr.buffer.count transitionByte + waits.length := by
  induction waits generalizing tr with
  | nil => rfl
  | cons w ws ih =>
    rw [emitWaits_cons, ih, emitFlux_buffer, List.count_append, count_transitionByte_fluxBytes, List.length_cons,
      Nat.add_assoc, Nat.add_comm 1]

/-- R180, where no wait is negative. -/
theorem exec_btToTrack_of_nonneg (cellTime precomp : Nat) (s : State)
    (h : ∀ t ∈ waitsByCell cellTime precomp s.bt.cells, 0 ≤ t) :
    exec (.btToTrack cellTime precomp) s =
      .next { s with tr := emitWaits (waitsByCell cellTime precomp s.bt.cells) s.tr,
                     response := some (.ok .none) } := by
  rw [← loweringWaitsCellByCell] at h ⊢
  exact execBtToTrack_of_nonneg cellTime precomp s h

/-- Settles O20: the waits emitted are those of the 1 cells, each in closed form. -/
theorem btToTrackEmitsOneFluxPerOneCell : Obligations.BtToTrackEmitsOneFluxPerOneCell := by
  intro cellTime precomp s
  refine ⟨decodeOfEncodeIsTheInstruction (.btToTrack cellTime precomp) rfl,
    decodeRequest_of_readOperands_some 0x24#8 .btToTrack [.num cellTime] (.btToTrack cellTime 0) rfl rfl,
    fun hwaits => ?_⟩
  rw [exec_btToTrack_of_nonneg _ _ _ hwaits, emitWaits_eq _ _ hwaits, length_waitsByCell]

/-- Settles O22: each flux emitted has one TRANSITION byte, whatever its wait. -/
theorem oneTransitionBytePerOneCell : Obligations.OneTransitionBytePerOneCell := by
  intro cellTime precomp s t h hok
  obtain ⟨_, -, rfl⟩ | ⟨-, rfl⟩ := execBtToTrack_next_cases cellTime precomp s t h
  · cases hok
  · have hcount := count_transitionByte_emitWaits (lowerWaits cellTime precomp s.bt.cells) s.tr
    rw [loweringWaitsCellByCell, length_waitsByCell] at hcount
    rwa [loweringWaitsCellByCell]

/-- Settles O23: the waits do not see the zeros added, so both outcomes repeat; without a 1 cell there is no wait. -/
theorem loweringDropsTheTail : Obligations.LoweringDropsTheTail := by
  intro cellTime precomp n s
  refine ⟨fun t h => ?_, fun hnone => ?_⟩
  · have hsame : lowerWaits cellTime precomp (s.bt.cells ++ List.replicate n false) =
        lowerWaits cellTime precomp s.bt.cells := by
      rw [lowerWaits_append_zeros, loweringWaitsCellByCell]
    obtain ⟨time, hfirst, rfl⟩ | ⟨hwaits, rfl⟩ := execBtToTrack_next_cases cellTime precomp s t h
    · exact execBtToTrack_of_negative _ _ _ _ (hsame ▸ hfirst)
    · refine (execBtToTrack_of_nonneg _ _ _ (hsame ▸ hwaits)).trans ?_
      simp only [hsame]
      rfl
  · have hwaits := waitsByCell_of_no_one cellTime precomp s.bt.cells hnone
    rw [exec_btToTrack_of_nonneg _ _ _ (by simp [hwaits]), hwaits, emitWaits_nil]

/-- R192: where a cell takes no clocks, no wait does. -/
theorem waitsByCell_of_le_one (cellTime : Nat) (cells : List Bit) (h : cellTime ≤ 1) :
    waitsByCell cellTime 0 cells = List.replicate (cells.count true) 0 := by
  rw [← length_waitsByCell cellTime 0 cells, List.eq_replicate_length]
  intro t ht
  obtain ⟨n, -, rfl⟩ := (mem_waitsByCell_iff _ _ _ _).mp ht
  have hhalf : halfCell cellTime = 0 := Nat.div_eq_of_lt (Nat.lt_succ_of_le h)
  simp [waitAt, hhalf]

theorem execBtToTrack_odd (cellTime precomp : Nat) (s : State) :
    execBtToTrack (2 * cellTime + 1) precomp s = execBtToTrack (2 * cellTime) precomp s := by
  have hhalf : halfCell (2 * cellTime + 1) = halfCell (2 * cellTime) := by simp only [halfCell]; omega
  simp only [execBtToTrack, lowerWaits, hhalf]

/-- Settles O24: the cell time enters through its half only; a half of 0 makes each flux a bare TRANSITION. -/
theorem oddAndTinyCellTimes : Obligations.OddAndTinyCellTimes := by
  intro cellTime precomp s
  refine ⟨execBtToTrack_odd cellTime precomp s, fun htiny => ?_⟩
  have hwaits := waitsByCell_of_le_one cellTime s.bt.cells htiny
  have hnonneg : ∀ t ∈ waitsByCell cellTime 0 s.bt.cells, 0 ≤ t := fun t ht =>
    (List.eq_of_mem_replicate (hwaits ▸ ht)).ge
  rw [exec_btToTrack_of_nonneg _ _ _ hnonneg, emitWaits_eq _ _ hnonneg, hwaits, List.flatMap_replicate, Int.toNat_zero,
    fluxClosedForm_zero, List.flatten_replicate_singleton, List.sum_replicate, List.length_replicate, smul_zero,
    zero_add, BitVec.ofInt_natCast]

end Sys2Proof.Machine
end

section
/-! R213, R220: the bytes of an index wait, in closed form. -/

namespace Sys2Proof.Machine

/-- R213: the first byte takes as many pulses as it can, the rest of the wait is the wait for the rest. -/
theorem indexWaitClosedForm_of_pos (n : Nat) (h : 0 < n) :
    indexWaitClosedForm n =
      waitIndexByte (min n Config.indexWaitMax) :: indexWaitClosedForm (n - min n Config.indexWaitMax) := by
  by_cases hfits : n < 63
  · have hmin : min n Config.indexWaitMax = n := Nat.min_eq_left hfits.le
    rw [hmin, Nat.sub_self, indexWaitClosedForm, Nat.div_eq_of_lt hfits, Nat.mod_eq_of_lt hfits, if_neg h.ne']
    rfl
  · have hmin : min n Config.indexWaitMax = 63 := Nat.min_eq_right (Nat.le_of_not_lt hfits)
    have hquot : n / 63 = (n - 63) / 63 + 1 := by omega
    have hrem : n % 63 = (n - 63) % 63 := by omega
    rw [hmin, indexWaitClosedForm, hquot, hrem]
    rfl

theorem waitIndexBytes_eq_indexWaitClosedForm (fuel n : Nat) (h : n ≤ fuel) :
    waitIndexBytes fuel n = indexWaitClosedForm n := by
  induction fuel generalizing n with
  | zero => obtain rfl := Nat.le_zero.mp h; rfl
  | succ fuel ih =>
    rw [waitIndexBytes]
    split
    case isTrue hzero => subst hzero; rfl
    case isFalse hpos =>
      have hrest : n - min n Config.indexWaitMax ≤ fuel := by simp only [Config.indexWaitMax]; omega
      rw [ih _ hrest, ← indexWaitClosedForm_of_pos n (Nat.pos_of_ne_zero hpos)]

/-- R220: as few bytes as the count allows. -/
theorem length_indexWaitClosedForm (n : Nat) : (indexWaitClosedForm n).length = (n + 62) / 63 := by
  rw [indexWaitClosedForm, List.length_append, List.length_replicate]
  split
  case isTrue => rw [List.length_nil]; omega
  case isFalse => rw [List.length_singleton]; omega

theorem waitIndexByte_count_toNat (k : Nat) (h : k < 64) : ((waitIndexByte k).extractLsb' 0 6).toNat = k := by
  rw [waitIndexByte_count]
  exact Nat.mod_eq_of_lt h

/-- R220: the counts of the bytes sum to the count asked for. -/
theorem sum_counts_indexWaitClosedForm (n : Nat) :
    ((indexWaitClosedForm n).map (fun b => (b.extractLsb' 0 6).toNat)).sum = n := by
  have hfull : ((0x7F#8 : Byte).extractLsb' 0 6).toNat = 63 := rfl
  rw [indexWaitClosedForm, List.map_append, List.sum_append, List.map_replicate, List.sum_replicate_nat, hfull]
  split
  case isTrue hzero => rw [List.map_nil, List.sum_nil]; omega
  case isFalse =>
    have hlast := waitIndexByte_count_toNat (n % 63) (by omega)
    rw [waitIndexByte] at hlast
    rw [List.map_singleton, List.sum_singleton, hlast]
    omega

/-- R220: each count is 1 to 63. -/
theorem range_of_mem_indexWaitClosedForm (n : Nat) (b : Byte) (hb : b ∈ indexWaitClosedForm n) :
    0x41 ≤ b.toNat ∧ b.toNat ≤ 0x7F := by
  rw [indexWaitClosedForm, List.mem_append] at hb
  obtain hfull | hlast := hb
  · obtain rfl := List.eq_of_mem_replicate hfull
    decide
  · split at hlast
    case isTrue => exact absurd hlast List.not_mem_nil
    case isFalse hrem =>
      obtain rfl : b = waitIndexByte (n % 63) := List.mem_singleton.mp hlast
      rw [toNat_waitIndexByte _ (by omega)]
      omega

end Sys2Proof.Machine
end

section
/-! R210 to R217: what each operation of the Track does. -/

namespace Sys2Proof.Machine

/-- R210. -/
theorem exec_trReset (s : State) :
    exec .trReset s = .next { s with tr := ⟨[], .read, 0#32⟩, response := some (.ok .none) } := rfl

/-- R211. -/
theorem exec_trEmitWrgate (g : Gate) (s : State) :
    exec (.trEmitWrgate g) s =
      .next { s with tr := ⟨s.tr.buffer ++ [gateByte g], g, s.tr.timestep + 1#32⟩,
                     response := some (.ok .none) } := rfl

/-- R212: a time that is no negative number. -/
theorem exec_trEmitFlux_natCast (time : Nat) (s : State) :
    exec (.trEmitFlux time) s = .next { s with tr := emitFlux time s.tr, response := some (.ok .none) } := rfl

/-- R212, R304. -/
theorem exec_trEmitFlux_of_neg (z : Int) (s : State) (h : z < 0) :
    exec (.trEmitFlux z) s = .next { s with response := some (.error (.invalidFluxTime z)) } :=
  if_pos h

/-- R213: at least one pulse. -/
theorem exec_trEmitWaitIndex_of_pos (n : Nat) (s : State) (h : 1 ≤ n) :
    exec (.trEmitWaitIndex n) s =
      .next { s with tr := ⟨s.tr.buffer ++ indexWaitClosedForm n, s.tr.gate, s.tr.timestep⟩,
                     response := some (.ok .none) } := by
  have hok : ¬ (n : Int) < 1 := by omega
  have hemit : s.tr.emit (waitIndexBytes n n) 0 =
      ⟨s.tr.buffer ++ indexWaitClosedForm n, s.tr.gate, s.tr.timestep⟩ := by
    rw [waitIndexBytes_eq_indexWaitClosedForm n n le_rfl, Track.emit, BitVec.add_zero]
  rw [← hemit]
  exact if_neg hok

/-- R213, R303. -/
theorem exec_trEmitWaitIndex_of_lt (z : Int) (s : State) (h : z < 1) :
    exec (.trEmitWaitIndex z) s = .next { s with response := some (.error (.invalidWaitIndex z)) } :=
  if_pos h

/-- R214. -/
theorem exec_trEmitStop (s : State) :
    exec .trEmitStop s =
      .next { s with tr := ⟨s.tr.buffer ++ [stopByte], s.tr.gate, s.tr.timestep⟩,
                     response := some (.ok .none) } := by
  have hemit : s.tr.emit [stopByte] 0 = ⟨s.tr.buffer ++ [stopByte], s.tr.gate, s.tr.timestep⟩ := by
    rw [Track.emit, BitVec.add_zero]
  rw [← hemit]
  rfl

/-- R215. -/
theorem exec_trGetTime (s : State) :
    exec .trGetTime s = .next { s with response := some (.ok (.time s.tr.timestep)) } := rfl

/-- R41: `TR.too_long`. -/
theorem tooLong_iff (cap : Nat) (buffer : List Byte) : tooLong cap buffer = true ↔ cap < buffer.length :=
  decide_eq_true_iff

/-- R216, up to the cap. -/
theorem exec_trGetBuffer_of_le (s : State) (h : s.tr.buffer.length ≤ s.trackCap) :
    exec .trGetBuffer s = .next { s with response := some (.ok (.buffer s.tr.buffer)) } :=
  if_neg (mt (tooLong_iff _ _).mp (Nat.not_lt.mpr h))

/-- R216, R306: above the cap. -/
theorem exec_trGetBuffer_of_lt (s : State) (h : s.trackCap < s.tr.buffer.length) :
    exec .trGetBuffer s = .next { s with response := some (.error (.trackTooLong s.tr.buffer.length)) } :=
  if_pos ((tooLong_iff _ _).mpr h)

/-- R217. -/
theorem exec_trGetGate (s : State) :
    exec .trGetGate s = .next { s with response := some (.ok (.gate s.tr.gate)) } := rfl

end Sys2Proof.Machine
end

section
/-! R102, R221: the block emits bytes of one alphabet, all of them commands. -/

namespace Sys2Proof.Machine

theorem emittable_iff (b : Byte) : emittable b = true ↔ b.toNat ≤ 2 ∨ b.toNat = 0x3F ∨ 0x41 ≤ b.toNat := by
  simp only [emittable, Bool.or_eq_true, decide_eq_true_eq, beq_iff_eq, or_assoc]

theorem emittable_stopByte : emittable stopByte = true := by decide

theorem emittable_transitionByte : emittable transitionByte = true := by decide

theorem emittable_gateByte (g : Gate) : emittable (gateByte g) = true := by
  cases g <;> decide

theorem emittable_waitTimerByte (t : Nat) (hmax : t ≤ Config.timerWaitMax) : emittable (waitTimerByte t) = true := by
  simp only [Config.timerWaitMax] at hmax
  rw [emittable_iff, toNat_waitTimerByte t (by omega)]
  omega

/-- R102: each range of the alphabet is a range of R100. -/
theorem exists_decodeCommand_of_emittable (b : Byte) (h : emittable b = true) : ∃ i, decodeCommand b = .ok i := by
  obtain ⟨htimer, hindex, hstop, -, htransition, hwrite, hread, -⟩ := decodeCommand_by_ranges b
  rw [emittable_iff] at h
  obtain hb | ⟨hlo, hhi⟩ | hb | hb | hb | hb : 0x80 ≤ b.toNat ∨ (0x41 ≤ b.toNat ∧ b.toNat ≤ 0x7F) ∨
      b.toNat = 0x3F ∨ b.toNat = 0x02 ∨ b.toNat = 0x01 ∨ b.toNat = 0x00 := by omega
  · exact ⟨_, htimer hb⟩
  · exact ⟨_, hindex hlo hhi⟩
  · exact ⟨_, hstop hb⟩
  · exact ⟨_, htransition hb⟩
  · exact ⟨_, hwrite hb⟩
  · exact ⟨_, hread hb⟩

theorem emittable_of_mem_waitBytes (gate : Gate) (fuel time : Nat) :
    ∀ b ∈ waitBytes gate fuel time, emittable b = true := by
  induction fuel generalizing time with
  | zero => exact List.forall_mem_nil _
  | succ fuel ih =>
    rw [waitBytes]
    split
    case isTrue => exact List.forall_mem_cons.mpr ⟨emittable_waitTimerByte _ le_rfl, ih _⟩
    case isFalse hshort =>
      split
      · exact List.forall_mem_singleton.mpr (emittable_waitTimerByte time (Nat.le_of_not_lt hshort))
      · split
        · exact List.forall_mem_singleton.mpr (emittable_gateByte gate)
        · exact List.forall_mem_nil _

theorem emittable_of_mem_fluxBytes (gate : Gate) (time : Nat) : ∀ b ∈ fluxBytes gate time, emittable b = true :=
  List.forall_mem_append.mpr
    ⟨emittable_of_mem_waitBytes gate time time, List.forall_mem_singleton.mpr emittable_transitionByte⟩

theorem emittable_of_mem_waitIndexBytes (n : Nat) : ∀ b ∈ waitIndexBytes n n, emittable b = true := by
  intro b hb
  rw [waitIndexBytes_eq_indexWaitClosedForm n n le_rfl] at hb
  exact (emittable_iff b).mpr (.inr (.inr (range_of_mem_indexWaitClosedForm n b hb).1))

/-- R221: what an instruction leaves in the buffer is in the alphabet, where what it found there was. -/
theorem TrackEffect.keeps_emittable {tr tr' : Track} {i : Instr} (h : TrackEffect tr i tr')
    (htr : ∀ b ∈ tr.buffer, emittable b = true) : ∀ b ∈ tr'.buffer, emittable b = true := by
  have happend : ∀ bytes : List Byte, (∀ b ∈ bytes, emittable b = true) →
      ∀ b ∈ tr.buffer ++ bytes, emittable b = true :=
    fun _ hbytes => List.forall_mem_append.mpr ⟨htr, hbytes⟩
  cases h with
  | keep => exact htr
  | reset => exact List.forall_mem_nil _
  | gate g => exact happend _ (List.forall_mem_singleton.mpr (emittable_gateByte g))
  | flux time => exact happend _ (emittable_of_mem_fluxBytes tr.gate time.toNat)
  | waitIndex n => exact happend _ (emittable_of_mem_waitIndexBytes n.toNat)
  | stop => exact happend _ (List.forall_mem_singleton.mpr emittable_stopByte)
  | lower _ _ waits =>
    rw [emitWaits_buffer]
    refine happend _ fun b hb => ?_
    obtain ⟨time, -, hb⟩ := List.mem_flatMap.mp hb
    exact emittable_of_mem_fluxBytes tr.gate time.toNat b hb

theorem step_keeps_bufferEmittable (s t : State) (h : step s = .next t) (hs : bufferEmittable s) :
    bufferEmittable t := by
  obtain ⟨-, rfl⟩ | ⟨_, i, -, -, hexec⟩ | ⟨_, _, -, -, rfl⟩ | ⟨-, rfl⟩ | ⟨_, -, rfl⟩ := step_next_cases s t h
  · exact hs
  · exact (exec_trackEffect i _ t hexec).keeps_emittable hs
  · exact hs
  · exact List.forall_mem_nil _
  · exact hs

/-- R249: commands, then a STOP. -/
theorem wellFormedProgram_append_stop (p : List Byte) (h : ∀ b ∈ p, ∃ i, decodeCommand b = .ok i) :
    wellFormedProgram (p ++ [stopByte]) = true := by
  induction p with
  | nil => rfl
  | cons b p ih =>
    obtain ⟨⟨i, hi⟩, hp⟩ := List.forall_mem_cons.mp h
    simp only [List.cons_append, wellFormedProgram, hi, ih hp, Bool.and_self, Bool.or_true]

/-- Settles O57: every byte an instruction appends is in the alphabet, the alphabet is made of commands, and
TR_EMIT_STOP ends the buffer. -/
theorem everyStepKeepsTheBufferEmittable : Obligations.EveryStepKeepsTheBufferEmittable :=
  ⟨step_keeps_bufferEmittable, exists_decodeCommand_of_emittable, fun s hs =>
    ⟨_, exec_trEmitStop s,
      wellFormedProgram_append_stop _ fun b hb => exists_decodeCommand_of_emittable b (hs b hb)⟩⟩

end Sys2Proof.Machine
end

section
/-! R210 to R220: the statements about the operations of the Track, with the spec's examples. -/

namespace Sys2Proof.Machine

theorem emitFlux_eq (time : Nat) (tr : Track) :
    emitFlux time tr =
      ⟨tr.buffer ++ fluxClosedForm tr.gate time, tr.gate, tr.timestep + BitVec.ofNat 32 (time + 1)⟩ := by
  rw [← fluxBytes_eq_fluxClosedForm]
  rfl

/-- Settles O27: the sign of the time decides between the closed form's bytes and the error. -/
theorem trEmitFluxClosedForm : Obligations.TrEmitFluxClosedForm := fun s =>
  ⟨fun z => decodeOfEncodeIsTheInstruction (.trEmitFlux z) rfl,
    fun time => by rw [exec_trEmitFlux_natCast, emitFlux_eq],
    fun z => exec_trEmitFlux_of_neg z s⟩

/-- Settles O28: the bytes before the TRANSITION are those of the wait loop. -/
theorem fluxWaitClocksSumToTheTime : Obligations.FluxWaitClocksSumToTheTime := fun time s =>
  ⟨_, waitBytes s.tr.gate time time, exec_trEmitFlux_natCast time s, (List.append_assoc _ _ _).symm,
    accountedClocks_waitBytes s.tr.gate time time le_rfl, transitionByte_not_mem_waitBytes s.tr.gate time time⟩

/-- Settles O29: an omitted count is read as 1; the laws of the bytes are those of their closed form. -/
theorem trEmitWaitIndexSplitsTheCount : Obligations.TrEmitWaitIndexSplitsTheCount := fun s =>
  ⟨fun z => decodeOfEncodeIsTheInstruction (.trEmitWaitIndex z) rfl,
    decodeRequest_of_readOperands_some 0x33#8 .trEmitWaitIndex [] _ rfl rfl,
    fun n => exec_trEmitWaitIndex_of_pos n s,
    fun n => ⟨length_indexWaitClosedForm n, sum_counts_indexWaitClosedForm n, range_of_mem_indexWaitClosedForm n⟩,
    fun z => exec_trEmitWaitIndex_of_lt z s⟩

/-- Settles O25: TR_RESET puts the reset Track in place and ends OK. -/
theorem trResetClearsTheTrack : Obligations.TrResetClearsTheTrack := fun s =>
  ⟨decodeOfEncodeIsTheInstruction .trReset rfl, exec_trReset s⟩

/-- Settles O26: the byte is R38's code of the gate, and nothing asks for the gate before. -/
theorem trEmitWrgateSetsTheGate : Obligations.TrEmitWrgateSetsTheGate := by
  intro g s
  have hbyte : gateByte g = if g = .write then 0x01#8 else 0x00#8 := by cases g <;> rfl
  refine ⟨decodeOfEncodeIsTheInstruction (.trEmitWrgate g) rfl, ?_⟩
  rw [exec_trEmitWrgate, hbyte]

/-- Settles O30: a flux of 0 after the STOP appends its TRANSITION. -/
theorem trEmitStopAppendsStop : Obligations.TrEmitStopAppendsStop := by
  intro s
  refine ⟨decodeOfEncodeIsTheInstruction .trEmitStop rfl, exec_trEmitStop s, ?_⟩
  have hflux := exec_trEmitFlux_natCast 0
  rw [Nat.cast_zero] at hflux
  simp only [execAll, exec_trEmitStop, hflux]
  exact ⟨_, rfl, List.append_assoc _ _ _⟩

/-- Settles O31: the reset sets the timestep to 0 and the flux adds T + 1. -/
theorem trGetTimeAnswersTheTimestep : Obligations.TrGetTimeAnswersTheTimestep := by
  intro time s
  refine ⟨decodeOfEncodeIsTheInstruction .trGetTime rfl, exec_trGetTime s, ?_⟩
  simp only [execAll, exec_trReset, exec_trEmitFlux_natCast, exec_trGetTime, emitFlux_timestep, BitVec.zero_add]
  exact ⟨_, rfl, rfl⟩

/-- Settles O32: the length decides between the buffer and the error. -/
theorem trGetBufferChecksTheCap : Obligations.TrGetBufferChecksTheCap := fun s =>
  ⟨decodeOfEncodeIsTheInstruction .trGetBuffer rfl, exec_trGetBuffer_of_le s, exec_trGetBuffer_of_lt s⟩

/-- Settles O33: in the example TR_GET_GATE answers the gate that TR_EMIT_WRGATE set. -/
theorem trGetGateAnswersTheGate : Obligations.TrGetGateAnswersTheGate := by
  intro s
  refine ⟨decodeOfEncodeIsTheInstruction .trGetGate rfl, exec_trGetGate s, ?_⟩
  simp only [execAll, exec_trReset, exec_trEmitWrgate, exec_trGetGate]
  exact ⟨_, rfl, rfl⟩

end Sys2Proof.Machine
end

section
/-! R240 to R247: what each command of the writer does, and the stops of the interpreter. -/

namespace Sys2Proof.Machine

/-- R241. -/
theorem exec_waitTimer (w : BitVec 7) (s : State) :
    exec (.waitTimer w) s =
      .next { s with writer := { s.writer with ip := s.writer.ip + 1, time := s.writer.time + (w.toNat + 2) } } := rfl

/-- R242. -/
theorem exec_waitIndex_of_ne_zero (k : BitVec 6) (s : State) (hk : k ≠ 0#6) :
    exec (.waitIndex k) s =
      .next { s with
        writer := { s.writer with
          ip := s.writer.ip + 1, time := s.writer.time + Config.indexWaitDuration s.draws },
        draws := s.draws + 1 } :=
  execWaitIndex_of_ne_zero k s hk

/-- R247. -/
theorem exec_waitIndex_zero (s : State) : exec (.waitIndex 0#6) s = .fault (.reservedCommand 0x40#8) := rfl

/-- R243. -/
theorem exec_stop (s : State) : exec .stop s = .next s := rfl

/-- R244. -/
theorem exec_waitHstmd (s : State) :
    exec .waitHstmd s =
      .next { s with
        writer := { s.writer with
          ip := s.writer.ip + 1, time := s.writer.time + Config.hstmdWaitDuration s.draws },
        draws := s.draws + 1 } := rfl

/-- R245. -/
theorem exec_transition (s : State) :
    exec .transition s =
      .next { s with
        writer := ⟨s.writer.program, s.writer.ip + 1, s.writer.gate, s.writer.time + 1,
          s.writer.events ++ [(s.writer.time, s.writer.gate)]⟩ } := rfl

/-- R246. -/
theorem exec_wrGate (g : Gate) (s : State) :
    exec (.wrGate g) s =
      .next { s with
        writer := ⟨s.writer.program, s.writer.ip + 1, g, s.writer.time + 1, s.writer.events⟩ } := rfl

/-- R100 backwards: a byte decodes to the well-formed instruction whose encoding it is. -/
theorem decodeCommand_eq_ok_iff (b : Byte) (i : Instr) :
    decodeCommand b = .ok i ↔ encode i = .command b ∧ i.wellFormed = true := by
  refine ⟨encode_of_decodeCommand_ok b i, fun ⟨hencode, hwf⟩ => ?_⟩
  have hdecode := decodeOfEncodeIsTheInstruction i hwf
  rwa [hencode] at hdecode

theorem byteClocks_of_waitTimer (b : Byte) (w : BitVec 7) (h : decodeCommand b = .ok (.waitTimer w)) :
    byteClocks b = w.toNat + 2 := by
  simp only [byteClocks, h]

/-- R348: the clocks of an index wait are drawn, none is accounted. -/
theorem byteClocks_of_waitIndex (b : Byte) (k : BitVec 6) (h : decodeCommand b = .ok (.waitIndex k)) :
    byteClocks b = 0 := by
  simp only [byteClocks, h]

/-- R249: the buffer has no byte at `ip`. -/
theorem fetchCommand_of_length_le (w : Writer) (p : List Byte) (hp : w.program = some p) (hip : p.length ≤ w.ip) :
    fetchCommand w = .ranOffEnd := by
  simp only [fetchCommand, hp, List.getElem?_eq_none hip]

theorem step_of_ranOffEnd (s : State) (hf : fetch s = .ranOffEnd) : step s = .fault .ranOffEnd := by
  simp only [step, hf]

/-- Settles O34: the byte is the encoding of the wait, and its field is the wait less 2. -/
theorem waitTimerTakesItsClocks : Obligations.WaitTimerTakesItsClocks := by
  intro w s
  have hdecode : decodeCommand (0x80#8 ||| w.setWidth 8) = .ok (.waitTimer w) :=
    (decodeCommand_eq_ok_iff _ _).mpr ⟨rfl, rfl⟩
  exact ⟨hdecode, exec_waitTimer w s, byteClocks_of_waitTimer _ w hdecode, by decide⟩

/-- Settles O35: a count other than 0 has an encoding and draws the wait, the count 0 is the reserved byte. -/
theorem waitIndexTakesADraw : Obligations.WaitIndexTakesADraw := by
  refine fun k s => ⟨fun hk => ⟨exec_waitIndex_of_ne_zero k s hk, ?_⟩, exec_waitIndex_zero s⟩
  exact byteClocks_of_waitIndex _ k ((decodeCommand_eq_ok_iff _ _).mpr ⟨rfl, bne_iff_ne.mpr hk⟩)

/-- Settles O37: the byte is the encoding of WAIT_HSTMD. -/
theorem waitHstmdTakesADraw : Obligations.WaitHstmdTakesADraw := fun s =>
  ⟨(decodeCommand_eq_ok_iff _ _).mpr ⟨rfl, rfl⟩, exec_waitHstmd s⟩

/-- Settles O38: the byte is the encoding of TRANSITION. -/
theorem transitionRecordsAnEvent : Obligations.TransitionRecordsAnEvent := fun s =>
  ⟨(decodeCommand_eq_ok_iff _ _).mpr ⟨rfl, rfl⟩, byteClocks_transitionByte, exec_transition s⟩

/-- Settles O39: the two bytes are the encodings of WR_GATE. -/
theorem wrGateSetsTheWritersGate : Obligations.WrGateSetsTheWritersGate := fun g s =>
  ⟨(decodeCommand_eq_ok_iff _ _).mpr ⟨rfl, rfl⟩, (decodeCommand_eq_ok_iff _ _).mpr ⟨rfl, rfl⟩,
    byteClocks_gateByte .read, byteClocks_gateByte .write, exec_wrGate g s⟩

/-- Settles O46: the decoder rejects the reserved bytes, and past the end there is no byte to fetch. -/
theorem writerFaultsAtReservedBytesAndPastTheEnd : Obligations.WriterFaultsAtReservedBytesAndPastTheEnd := by
  refine fun p rest s hin hp => ⟨fun b hb hreserved => ?_, fun hip => ?_⟩
  · have hfetch : fetch s = .code (.command b) :=
      (fetch_of_writerStep s rest hin).trans (fetchCommand_of_getElem? s.writer p b hp hb)
    obtain ⟨-, -, -, -, -, -, -, hdecode⟩ := decodeCommand_by_ranges b
    rw [step_of_decode_error s _ _ hfetch (hdecode hreserved)]
    rfl
  · exact step_of_ranOffEnd s
      ((fetch_of_writerStep s rest hin).trans (fetchCommand_of_length_le s.writer p hp hip))

end Sys2Proof.Machine
end

section
/-! R240: the bytes still in front of the writer, what a command does to the interpreter, and what one step of the
writer does. -/

namespace Sys2Proof.Machine

/-- The bytes of the writer's buffer from `ip` on (R240). -/
def Writer.remaining (w : Writer) : Option (List Byte) := w.program.map (·.drop w.ip)

@[simp] theorem Writer.remaining_start (p : List Byte) : (Writer.start (some p)).remaining = some p := rfl

/-- A byte at `ip` is the first of the remaining bytes, so `ip` is inside the buffer and the bytes after it remain at
the next index. -/
theorem Writer.remaining_eq_some_cons_iff (w : Writer) (b : Byte) (rest : List Byte) :
    w.remaining = some (b :: rest) ↔
      ∃ p, w.program = some p ∧ p[w.ip]? = some b ∧ p.drop (w.ip + 1) = rest := by
  simp only [Writer.remaining, Option.map_eq_some_iff]
  refine exists_congr fun p => and_congr_right fun _ => ?_
  rw [← List.tail_drop, ← List.head?_drop]
  cases p.drop w.ip <;> simp

/-- R240: a command that is no STOP leaves the bytes after it. -/
theorem Writer.remaining_succ (w w' : Writer) (b : Byte) (rest : List Byte) (h : w.remaining = some (b :: rest))
    (hprogram : w'.program = w.program) (hip : w'.ip = w.ip + 1) : w'.remaining = some rest := by
  obtain ⟨p, hp, -, hrest⟩ := (w.remaining_eq_some_cons_iff b rest).mp h
  rw [Writer.remaining, hprogram, hip, hp, Option.map_some, hrest]

/-- What a command of the writer that is no STOP does to the interpreter and to the draw counter, by command. -/
inductive CommandEffect (w : Writer) (draws : Nat) : Instr → Writer → Nat → Prop
  /-- R241. -/
  | waitTimer (v : BitVec 7) : CommandEffect w draws (.waitTimer v) (w.advance (v.toNat + 2)) draws
  /-- R242. -/
  | waitIndex (k : BitVec 6) :
      CommandEffect w draws (.waitIndex k) (w.advance (Config.indexWaitDuration draws)) (draws + 1)
  /-- R244. -/
  | waitHstmd : CommandEffect w draws .waitHstmd (w.advance (Config.hstmdWaitDuration draws)) (draws + 1)
  /-- R245. -/
  | transition :
      CommandEffect w draws .transition (Writer.advance 1 { w with events := w.events ++ [(w.time, w.gate)] }) draws
  /-- R246. -/
  | wrGate (g : Gate) : CommandEffect w draws (.wrGate g) (Writer.advance 1 { w with gate := g }) draws

/-- R240, R247: a byte that decodes is a command of the writer, and no command faults. -/
theorem exec_command (b : Byte) (i : Instr) (hd : decodeCommand b = .ok i) (hi : i ≠ .stop) (s : State) :
    ∃ w draws, exec i s = .next { s with writer := w, draws := draws } ∧
      CommandEffect s.writer s.draws i w draws := by
  obtain ⟨hencode, hwf⟩ := encode_of_decodeCommand_ok b i hd
  cases i with
  | waitTimer v => exact ⟨_, _, rfl, .waitTimer v⟩
  | waitIndex k => exact ⟨_, _, execWaitIndex_of_ne_zero k s (bne_iff_ne.mp hwf), .waitIndex k⟩
  | stop => exact absurd rfl hi
  | waitHstmd => exact ⟨_, _, rfl, .waitHstmd⟩
  | transition => exact ⟨_, _, rfl, .transition⟩
  | wrGate g => exact ⟨_, _, rfl, .wrGate g⟩
  | _ => cases hencode

/-- R240: every command but STOP moves on by one. -/
theorem CommandEffect.program_and_ip {w w' : Writer} {draws draws' : Nat} {i : Instr}
    (h : CommandEffect w draws i w' draws') : w'.program = w.program ∧ w'.ip = w.ip + 1 := by
  cases h with
  | waitTimer | waitIndex | waitHstmd | transition | wrGate => exact ⟨rfl, rfl⟩

/-- R245: time does not run back, and an event is recorded at a clock that the command then takes. -/
theorem CommandEffect.keeps_eventsOrdered {s : State} {w : Writer} {draws : Nat} {i : Instr}
    (h : CommandEffect s.writer s.draws i w draws) (hs : eventsOrdered s) :
    eventsOrdered { s with writer := w, draws := draws } := by
  obtain ⟨hpast, hrising⟩ := hs
  have hlater (clocks : Nat) : ∀ e ∈ s.writer.events, e.1 < s.writer.time + clocks :=
    fun e he => Nat.lt_add_right clocks (hpast e he)
  cases h with
  | waitTimer | waitIndex | waitHstmd | wrGate => exact ⟨hlater _, hrising⟩
  | transition =>
    refine ⟨List.forall_mem_append.mpr ⟨hlater 1, List.forall_mem_singleton.mpr (Nat.lt_succ_self _)⟩,
      List.pairwise_append.mpr ⟨hrising, List.pairwise_singleton _ _, fun e he e' he' => ?_⟩⟩
    rw [List.mem_singleton.mp he']
    exact hpast e he

/-- R240: the writer's step executes the first of the remaining bytes. -/
theorem step_of_remaining_cons (s : State) (b : Byte) (i : Instr) (rest : List Byte) (later : List Input)
    (hin : s.inputs = .writerStep :: later) (hrem : s.writer.remaining = some (b :: rest))
    (hd : decodeCommand b = .ok i) : step s = exec i { s with inputs := later } := by
  obtain ⟨p, hp, hb, -⟩ := (s.writer.remaining_eq_some_cons_iff b rest).mp hrem
  exact stepRunsTheDecodedInstruction.2 p b i later s hin hp hb hd

theorem step_of_remaining_command (s : State) (b : Byte) (i : Instr) (rest : List Byte) (later : List Input)
    (hin : s.inputs = .writerStep :: later) (hrem : s.writer.remaining = some (b :: rest))
    (hd : decodeCommand b = .ok i) (hi : i ≠ .stop) :
    ∃ w draws, step s = .next { s with inputs := later, writer := w, draws := draws } ∧
      CommandEffect s.writer s.draws i w draws ∧ w.remaining = some rest := by
  obtain ⟨w, draws, hexec, heffect⟩ := exec_command b i hd hi { s with inputs := later }
  obtain ⟨hprogram, hip⟩ := heffect.program_and_ip
  exact ⟨w, draws, (step_of_remaining_cons s b i rest later hin hrem hd).trans hexec, heffect,
    s.writer.remaining_succ w b rest hrem hprogram hip⟩

/-- R243: a step at a STOP takes its input and changes nothing else. -/
theorem step_of_remaining_stop (s : State) (rest : List Byte) (later : List Input)
    (hin : s.inputs = .writerStep :: later) (hrem : s.writer.remaining = some (stopByte :: rest)) :
    step s = .next { s with inputs := later } :=
  step_of_remaining_cons s stopByte .stop rest later hin hrem rfl

/-- R247: the decoder's only error is a reserved byte. -/
theorem step_of_remaining_reserved (s : State) (b : Byte) (e : DecodeError) (rest : List Byte) (later : List Input)
    (hin : s.inputs = .writerStep :: later) (hrem : s.writer.remaining = some (b :: rest))
    (hd : decodeCommand b = .error e) : step s = .fault (.reservedCommand b) := by
  obtain ⟨p, hp, hb, -⟩ := (s.writer.remaining_eq_some_cons_iff b rest).mp hrem
  refine (writerFaultsAtReservedBytesAndPastTheEnd p later s hin hp).1 b hb ?_
  obtain ⟨htimer, hindex, hstop, hhstmd, htransition, hwrite, hread, -⟩ := decodeCommand_by_ranges b
  have hnot {i : Instr} : decodeCommand b ≠ .ok i := by rw [hd]; nofun
  by_contra hrange
  obtain h | ⟨hlo, hhi⟩ | h | h | h | h | h : 0x80 ≤ b.toNat ∨ (0x41 ≤ b.toNat ∧ b.toNat ≤ 0x7F) ∨
      b.toNat = 0x3F ∨ b.toNat = 0x03 ∨ b.toNat = 0x02 ∨ b.toNat = 0x01 ∨ b.toNat = 0x00 := by omega
  exacts [hnot (htimer h), hnot (hindex hlo hhi), hnot (hstop h), hnot (hhstmd h), hnot (htransition h),
    hnot (hwrite h), hnot (hread h)]

/-- R249: the program ended without a STOP. -/
theorem step_of_remaining_nil (s : State) (later : List Input)
    (hin : s.inputs = .writerStep :: later) (hrem : s.writer.remaining = some []) : step s = .fault .ranOffEnd := by
  obtain ⟨p, hp, hdrop⟩ := Option.map_eq_some_iff.mp hrem
  exact (writerFaultsAtReservedBytesAndPastTheEnd p later s hin hp).2 (List.drop_eq_nil_iff.mp hdrop)

theorem run_succ_of_step_next (n : Nat) (s t : State) (h : step s = .next t) :
    Sys2Proof.core.run (n + 1) s = Sys2Proof.core.run n t := by
  have hstep : Sys2Proof.core.step s = .next t := h
  simp only [Host.Core.run, hstep]

theorem run_succ_of_step_fault (n : Nat) (s : State) (f : Fault) (h : step s = .fault f) :
    Sys2Proof.core.run (n + 1) s = .fault f := by
  have hstep : Sys2Proof.core.step s = .fault f := h
  simp only [Host.Core.run, hstep]

end Sys2Proof.Machine
end

section
/-! R243, R249: runs of the writer to a STOP, over it, or into a fault. -/

namespace Sys2Proof.Machine

/-- R243, over any number of steps of the writer. -/
theorem run_at_stop (n : Nat) (rest : List Byte) (s : State) (hrem : s.writer.remaining = some (stopByte :: rest))
    (hin : s.inputs = List.replicate n .writerStep) : Sys2Proof.core.run n s = .next { s with inputs := [] } := by
  induction n generalizing s with
  | zero =>
    cases s
    subst hin
    rfl
  | succ n ih =>
    rw [run_succ_of_step_next n s _ (step_of_remaining_stop s rest _ hin hrem)]
    exact ih _ hrem rfl

/-- Settles O36: the STOP is the first of the remaining bytes, and stays so. -/
theorem stopHaltsTheWriter : Obligations.StopHaltsTheWriter :=
  ⟨exec_stop, fun n p s hp hstop hin =>
    run_at_stop n _ s ((s.writer.remaining_eq_some_cons_iff _ _).mpr ⟨p, hp, hstop, rfl⟩) hin⟩

/-- R249 at the first byte. -/
theorem wellFormedProgram_cons_iff (b : Byte) (rest : List Byte) :
    wellFormedProgram (b :: rest) = true ↔
      b = stopByte ∨ (∃ i, decodeCommand b = .ok i) ∧ wellFormedProgram rest = true := by
  cases hd : decodeCommand b with
  | ok i => simp [wellFormedProgram, hd]
  | error e => simp [wellFormedProgram, hd]

theorem eq_stopByte_of_decodeCommand (b : Byte) (h : decodeCommand b = .ok .stop) : b = stopByte :=
  (Code.command.inj (encode_of_decodeCommand_ok b .stop h).1).symm

/-- R249: a well-formed rest of the program never faults, however often the writer steps. -/
theorem run_of_wellFormedProgram (n : Nat) (p : List Byte) (s : State) (hrem : s.writer.remaining = some p)
    (hin : s.inputs = List.replicate n .writerStep) (hp : wellFormedProgram p = true) :
    ∃ t, Sys2Proof.core.run n s = .next t := by
  induction n generalizing p s with
  | zero => exact ⟨s, rfl⟩
  | succ n ih =>
    cases p with
    | nil => cases hp
    | cons b rest =>
      by_cases hstop : b = stopByte
      · subst hstop
        exact ⟨_, run_at_stop (n + 1) rest s hrem hin⟩
      · obtain ⟨⟨i, hd⟩, hrest⟩ := ((wellFormedProgram_cons_iff b rest).mp hp).resolve_left hstop
        have hi : i ≠ .stop := fun h => hstop (eq_stopByte_of_decodeCommand b (h ▸ hd))
        obtain ⟨w, draws, hstep, -, hrem'⟩ := step_of_remaining_command s b i rest _ hin hrem hd hi
        rw [run_succ_of_step_next n s _ hstep]
        exact ih rest _ hrem' rfl hrest

/-- R249: a rest of the program that is not well formed faults within its length and one step more. -/
theorem run_of_not_wellFormedProgram (p : List Byte) (n : Nat) (s : State) (hrem : s.writer.remaining = some p)
    (hin : s.inputs = List.replicate n .writerStep) (hp : wellFormedProgram p = false) (hn : p.length < n) :
    ∃ f, Sys2Proof.core.run n s = .fault f := by
  induction p generalizing n s with
  | nil =>
    obtain ⟨n, rfl⟩ := Nat.exists_eq_add_one.mpr hn
    exact ⟨_, run_succ_of_step_fault n s _ (step_of_remaining_nil s _ hin hrem)⟩
  | cons b rest ih =>
    obtain ⟨n, rfl⟩ := Nat.exists_eq_add_one.mpr (Nat.zero_lt_of_lt hn)
    have hnot := (wellFormedProgram_cons_iff b rest).not.mp (Bool.eq_false_iff.mp hp)
    cases hd : decodeCommand b with
    | error e => exact ⟨_, run_succ_of_step_fault n s _ (step_of_remaining_reserved s b e rest _ hin hrem hd)⟩
    | ok i =>
      have hi : i ≠ .stop := fun h => hnot (.inl (eq_stopByte_of_decodeCommand b (h ▸ hd)))
      have hrest : wellFormedProgram rest = false := Bool.eq_false_iff.mpr fun h => hnot (.inr ⟨⟨i, hd⟩, h⟩)
      obtain ⟨w, draws, hstep, -, hrem'⟩ := step_of_remaining_command s b i rest _ hin hrem hd hi
      rw [run_succ_of_step_next n s _ hstep]
      exact ih n _ hrem' rfl hrest (Nat.lt_of_succ_lt_succ hn)

/-- Settles O60: at its hand-off the whole program remains. -/
theorem wellFormedProgramsAreThoseThatNeverFault : Obligations.WellFormedProgramsAreThoseThatNeverFault := by
  intro p n s hstart hin
  have hrem : s.writer.remaining = some p := by rw [hstart, Writer.remaining_start]
  exact ⟨run_of_wellFormedProgram n p s hrem hin, run_of_not_wellFormedProgram p n s hrem hin⟩

end Sys2Proof.Machine
end

section
/-! R240, R245: the invariants of the writer, over every step. -/

namespace Sys2Proof.Machine

/-- R92: the operations of the block are none of the writer's commands. A row of the operand reader builds its
operation from one number or sequence, refuses its operands, or builds the operation outright. -/
theorem agentOf_ne_writer_of_readOperands (c : OpCode) (operands : List Operand) (i : Instr)
    (h : readOperands c operands = some i) : agentOf i ≠ .writer := by
  revert h
  fun_cases readOperands c operands with
  | case2 | case3 | case4 | case5 | case7 | case10 | case13 | case14 | case15 =>
    intro h
    obtain ⟨_, -, rfl⟩ := Option.map_eq_some_iff.mp h
    nofun
  | case12 | case17 | case28 => nofun
  | _ =>
    rintro ⟨⟩
    nofun

theorem agentOf_ne_writer_of_decodeRequest (r : Request) (i : Instr) (h : decodeRequest r = .ok i) :
    agentOf i ≠ .writer := by
  unfold decodeRequest at h
  split at h
  · cases h
  · split at h
    · cases h
      exact agentOf_ne_writer_of_readOperands _ _ i ‹_›
    · cases h

theorem writer_of_fetch_command (s : State) (b : Byte) (h : fetch s = .code (.command b)) :
    ∃ p, s.writer.program = some p ∧ p[s.writer.ip]? = some b := by
  unfold fetch at h
  split at h
  case h_5 =>
    unfold fetchCommand at h
    split at h
    · cases h
    · split at h
      · cases h
        exact ⟨_, ‹_›, ‹_›⟩
      · cases h
  all_goals cases h

theorem eventsOrdered_of_writer_eq {s t : State} (h : t.writer = s.writer) (hs : eventsOrdered s) :
    eventsOrdered t := by
  unfold eventsOrdered at hs ⊢
  rwa [h]

theorem writerInBounds_of_writer_eq {s t : State} (h : t.writer = s.writer) (hs : writerInBounds s) :
    writerInBounds t := by
  unfold writerInBounds at hs ⊢
  rwa [h]

/-- A command moves `ip` past a byte that was there, so not past the end of the buffer. -/
theorem exec_command_keeps_writer_in_order (s t : State) (b : Byte) (i : Instr)
    (hb : ∃ p, s.writer.program = some p ∧ p[s.writer.ip]? = some b) (hd : decodeCommand b = .ok i)
    (h : exec i s = .next t) (hbounds : writerInBounds s) (hevents : eventsOrdered s) :
    writerInBounds t ∧ eventsOrdered t := by
  by_cases hi : i = .stop
  · subst hi
    cases h
    exact ⟨hbounds, hevents⟩
  · obtain ⟨w, draws, hexec, heffect⟩ := exec_command b i hd hi s
    obtain ⟨hprogram, hip⟩ := heffect.program_and_ip
    obtain ⟨p, hp, hbyte⟩ := hb
    obtain ⟨hlt, -⟩ := List.getElem?_eq_some_iff.mp hbyte
    cases hexec.symm.trans h
    refine ⟨fun q hq => ?_, heffect.keeps_eventsOrdered hevents⟩
    obtain rfl : p = q := Option.some.inj (hp.symm.trans (hprogram.symm.trans hq))
    exact hip.trans_le hlt

/-- Settles O58: a command moves on by one inside its buffer and records at the clock where it starts; a hand-off
starts at 0 with no events; the other steps do not touch the writer. -/
theorem everyStepKeepsTheWriterInOrder : Obligations.EveryStepKeepsTheWriterInOrder := by
  intro s t h hbounds hevents
  have hkept {u : State} (hu : u.writer = s.writer) : writerInBounds u ∧ eventsOrdered u :=
    ⟨writerInBounds_of_writer_eq hu hbounds, eventsOrdered_of_writer_eq hu hevents⟩
  obtain ⟨-, rfl⟩ | ⟨c, i, hfetch, hd, hexec⟩ | ⟨_, _, -, -, rfl⟩ | ⟨-, rfl⟩ | ⟨_, -, rfl⟩ :=
    step_next_cases s t h
  · exact hkept rfl
  · cases c with
    | request r => exact hkept (exec_keeps_writer i _ t hexec (agentOf_ne_writer_of_decodeRequest r i hd)).1
    | command b =>
      exact exec_command_keeps_writer_in_order (takeInput s) t b i (writer_of_fetch_command s b hfetch) hd hexec
        hbounds hevents
  · exact hkept rfl
  · exact hkept rfl
  · exact ⟨fun _ _ => Nat.zero_le _, List.forall_mem_nil _, .nil⟩

end Sys2Proof.Machine
end

section
/-! R248: what a stretch of the program costs the writer. -/

namespace Sys2Proof.Machine

/-- R242: each index wait takes the next draw. -/
theorem drawnIndexClocks_cons (n : Nat) (b : Byte) (bytes : List Byte) :
    drawnIndexClocks n (b :: bytes) = drawnIndexClocks n [b] + drawnIndexClocks (n + indexWaits [b]) bytes := by
  simp only [drawnIndexClocks, indexWaits, List.countP_singleton]
  split <;> simp

theorem indexWaits_cons (b : Byte) (bytes : List Byte) : indexWaits (b :: bytes) = indexWaits [b] + indexWaits bytes :=
  List.countP_append (l₁ := [b])

/-- R245: 0x02 is the one byte of TRANSITION. -/
theorem decodeCommand_eq_transition_iff (b : Byte) : decodeCommand b = .ok .transition ↔ b = transitionByte := by
  refine (decodeCommand_eq_ok_iff b .transition).trans ⟨fun ⟨h, _⟩ => (Code.command.inj h).symm, ?_⟩
  rintro rfl
  exact ⟨rfl, rfl⟩

/-- From `s` to `t` the writer has gone over `bytes` at their accounted clocks and the draws of their index waits, with
an event per TRANSITION (R248), and of the block nothing has changed. -/
structure WriterRan (bytes : List Byte) (s t : State) : Prop where
  ip : t.writer.ip = s.writer.ip + bytes.length
  time : t.writer.time = s.writer.time + (accountedClocks bytes + drawnIndexClocks s.draws bytes)
  events : t.writer.events.length = s.writer.events.length + bytes.count transitionByte
  draws : t.draws = s.draws + indexWaits bytes
  block : t.crc = s.crc ∧ t.bt = s.bt ∧ t.tr = s.tr ∧ t.response = s.response

theorem WriterRan.nil (s : State) : WriterRan [] s s := ⟨rfl, rfl, rfl, rfl, rfl, rfl, rfl, rfl⟩

theorem WriterRan.cons {b : Byte} {bytes : List Byte} {s t u : State} (hfirst : WriterRan [b] s t)
    (hrest : WriterRan bytes t u) : WriterRan (b :: bytes) s u := by
  obtain ⟨hip, htime, hevents, hdraws, hcrc, hbt, htr, hresponse⟩ := hfirst
  obtain ⟨hip', htime', hevents', hdraws', hcrc', hbt', htr', hresponse'⟩ := hrest
  refine ⟨?_, ?_, ?_, ?_, hcrc'.trans hcrc, hbt'.trans hbt, htr'.trans htr, hresponse'.trans hresponse⟩
  · rw [hip', hip, ← List.singleton_append (l := bytes), List.length_append]
    omega
  · rw [htime', htime, hdraws, drawnIndexClocks_cons s.draws b bytes, ← List.singleton_append (l := bytes),
      accountedClocks_append]
    omega
  · rw [hevents', hevents, ← List.singleton_append (l := bytes), List.count_append]
    omega
  · rw [hdraws', hdraws, indexWaits_cons b bytes]
    omega

/-- R241, R242, R245, R246: the clocks a command takes are those accounted for its byte, or its draw. -/
theorem CommandEffect.time_eq {w w' : Writer} {draws draws' : Nat} {b : Byte} {i : Instr}
    (h : CommandEffect w draws i w' draws') (hd : decodeCommand b = .ok i) (hi : i ≠ .waitHstmd) :
    w'.time = w.time + (byteClocks b + drawnIndexClocks draws [b]) := by
  cases h with
  | waitHstmd => exact absurd rfl hi
  | waitTimer | waitIndex | transition | wrGate => simp [byteClocks, drawnIndexClocks, hd]

/-- R242: an index wait takes one draw. -/
theorem CommandEffect.draws_eq {w w' : Writer} {draws draws' : Nat} {b : Byte} {i : Instr}
    (h : CommandEffect w draws i w' draws') (hd : decodeCommand b = .ok i) (hi : i ≠ .waitHstmd) :
    draws' = draws + indexWaits [b] := by
  cases h with
  | waitHstmd => exact absurd rfl hi
  | waitTimer | waitIndex | transition | wrGate => simp [indexWaits, hd]

/-- R245: a TRANSITION records one event, no other command records any. -/
theorem CommandEffect.events_length_eq {w w' : Writer} {draws draws' : Nat} {b : Byte} {i : Instr}
    (h : CommandEffect w draws i w' draws') (hd : decodeCommand b = .ok i) :
    w'.events.length = w.events.length + [b].count transitionByte := by
  have hiff : b = transitionByte ↔ i = .transition := by
    rw [← decodeCommand_eq_transition_iff, hd, Except.ok.injEq]
  cases h with
  | transition => simp [hiff.mpr rfl]
  | waitTimer | waitIndex | waitHstmd | wrGate => simp [hiff]

theorem CommandEffect.writerRan {s : State} {b : Byte} {i : Instr} {w : Writer} {draws : Nat}
    (h : CommandEffect s.writer s.draws i w draws) (hd : decodeCommand b = .ok i) (hi : i ≠ .waitHstmd)
    (later : List Input) : WriterRan [b] s { s with inputs := later, writer := w, draws := draws } :=
  ⟨h.program_and_ip.2, h.time_eq hd hi, h.events_length_eq hd, h.draws_eq hd hi, rfl, rfl, rfl, rfl⟩

/-- R102: the block emits no WAIT_HSTMD. -/
theorem exists_decodeCommand_of_emittable_ne_stop (b : Byte) (hb : emittable b = true) (hstop : b ≠ stopByte) :
    ∃ i, decodeCommand b = .ok i ∧ i ≠ .stop ∧ i ≠ .waitHstmd := by
  obtain ⟨i, hd⟩ := exists_decodeCommand_of_emittable b hb
  refine ⟨i, hd, ?_, ?_⟩
  · rintro rfl
    exact hstop (eq_stopByte_of_decodeCommand b hd)
  · rintro rfl
    obtain rfl : waitHstmdByte = b := Code.command.inj (encode_of_decodeCommand_ok b .waitHstmd hd).1
    cases hb

/-- R248, from any index: one step of the writer for each byte. -/
theorem run_of_emittable (p rest : List Byte) (later : List Input) (s : State)
    (hrem : s.writer.remaining = some (p ++ rest)) (hp : ∀ b ∈ p, emittable b = true ∧ b ≠ stopByte)
    (hin : s.inputs = List.replicate p.length .writerStep ++ later) :
    ∃ t, Sys2Proof.core.run p.length s = .next t ∧ t.inputs = later ∧ WriterRan p s t := by
  induction p generalizing s with
  | nil => exact ⟨s, rfl, hin, .nil s⟩
  | cons b p ih =>
    obtain ⟨⟨hb, hstop⟩, hp⟩ := List.forall_mem_cons.mp hp
    obtain ⟨i, hd, hi, hhstmd⟩ := exists_decodeCommand_of_emittable_ne_stop b hb hstop
    rw [List.length_cons, List.replicate_succ, List.cons_append] at hin
    obtain ⟨w, draws, hstep, heffect, hrem'⟩ := step_of_remaining_command s b i (p ++ rest) _ hin hrem hd hi
    obtain ⟨t, hrun, hlater, hran⟩ := ih { s with inputs := _, writer := w, draws := draws } hrem' hp rfl
    exact ⟨t, (run_succ_of_step_next p.length s _ hstep).trans hrun, hlater,
      (heffect.writerRan hd hhstmd _).cons hran⟩

/-- Settles O59: the writer starts at 0 with no events; the STOP adds no clocks to the timestep. -/
theorem writerTimeIsTimestepPlusDraws : Obligations.WriterTimeIsTimestepPlusDraws := by
  intro p rest later s hstart hp hin
  refine ⟨?_, fun haccounted hbuffer => ?_⟩
  · have hrem : s.writer.remaining = some (p ++ 0x3F#8 :: rest) := by rw [hstart, Writer.remaining_start]
    obtain ⟨t, hrun, hlater, hip, htime, hevents, hdraws, hblock⟩ := run_of_emittable p _ later s hrem hp hin
    simp only [hstart, Writer.start_ip, Writer.start_time, Writer.start_events, List.length_nil, Nat.zero_add]
      at hip htime hevents
    exact ⟨t, hrun, hlater, hip, htime, hevents, hdraws, hblock⟩
  · have hstop : accountedClocks [0x3F#8] = 0 := byteClocks_stopByte
    rw [haccounted, hbuffer, accountedClocks_append, hstop, Nat.add_zero]

end Sys2Proof.Machine
end

section
/-! R301 to R304, R306: which error an operation of the block raises, and that it answers OK where it raises none. -/

namespace Sys2Proof.Machine

/-- The error an instruction raises in a state, `none` where it raises none (R302 to R304, R306);
`exec_answers` ties it to `exec`. -/
def errorOf (s : State) : Instr → Option OpError
  | .btRaw _ nbits => if 32 < nbits then some (.invalidRawWidth nbits) else none
  | .btToTrack cellTime precomp =>
    ((lowerWaits cellTime precomp s.bt.cells).find? (fun t => decide (t < 0))).map .invalidFluxTime
  | .trEmitFlux time => if time < 0 then some (.invalidFluxTime time) else none
  | .trEmitWaitIndex n => if n < 1 then some (.invalidWaitIndex n) else none
  | .trGetBuffer => if s.trackCap < s.tr.buffer.length then some (.trackTooLong s.tr.buffer.length) else none
  | _ => none

/-- An error raised under a guard is raised exactly where the guard holds. -/
theorem guardedError_eq_some_iff (p : Prop) [Decidable p] (e e' : OpError) :
    (if p then some e' else none) = some e ↔ p ∧ e = e' := by
  rw [Option.ite_none_right_eq_some, Option.some_inj, eq_comm]

/-- R183: the first negative wait is the error. -/
theorem errorOf_btToTrack_eq_some_iff (cellTime precomp : Nat) (s : State) (e : OpError) :
    errorOf s (.btToTrack cellTime precomp) = some e ↔
      (waitsByCell cellTime precomp s.bt.cells).find? (fun t => decide (t < 0)) =
          some (2 * (cellTime / 2 : Nat) - (precomp : Int)) ∧
        e = .invalidFluxTime (2 * (cellTime / 2 : Nat) - (precomp : Int)) := by
  rw [← loweringWaitsCellByCell]
  refine Option.map_eq_some_iff.trans
    ⟨fun ⟨time, hfirst, herror⟩ => ?_, fun ⟨hfirst, herror⟩ => ⟨_, hfirst, herror.symm⟩⟩
  obtain ⟨-, -, rfl⟩ := window_and_value_of_first_negative_wait cellTime precomp _ time hfirst
  exact ⟨hfirst, herror.symm⟩

/-- R301: an operation of the block raises its error and writes nothing else, or it has none and answers OK. -/
theorem exec_answers (i : Instr) (s : State) (hi : agentOf i ≠ .writer) :
    (∃ e, errorOf s i = some e ∧ exec i s = .next { s with response := some (.error e) }) ∨
    (errorOf s i = none ∧ ∃ t result, exec i s = .next t ∧ t.response = some (.ok result)) := by
  cases i with
  | btRaw pattern nbits =>
    by_cases hbad : 32 < nbits
    · exact .inl ⟨_, if_pos hbad, exec_btRaw_of_lt pattern nbits s hbad⟩
    · exact .inr ⟨if_neg hbad, _, _, exec_btRaw_of_le pattern nbits s (Nat.not_lt.mp hbad), rfl⟩
  | btToTrack cellTime precomp =>
    obtain ⟨time, hfirst, hraise⟩ | ⟨hwaits, hemit⟩ := execBtToTrack_cases cellTime precomp s
    · exact .inl ⟨_, congrArg (Option.map _) hfirst, hraise⟩
    · have hnone : (lowerWaits cellTime precomp s.bt.cells).find? (fun t => decide (t < 0)) = none := by
        simpa using hwaits
      exact .inr ⟨congrArg (Option.map _) hnone, _, _, hemit, rfl⟩
  | trEmitFlux time =>
    by_cases hbad : time < 0
    · exact .inl ⟨_, if_pos hbad, exec_trEmitFlux_of_neg time s hbad⟩
    · have hnone : errorOf s (.trEmitFlux time) = none := if_neg hbad
      obtain ⟨n, rfl⟩ := Int.eq_ofNat_of_zero_le (Int.not_lt.mp hbad)
      exact .inr ⟨hnone, _, _, exec_trEmitFlux_natCast n s, rfl⟩
  | trEmitWaitIndex n =>
    by_cases hbad : n < 1
    · exact .inl ⟨_, if_pos hbad, exec_trEmitWaitIndex_of_lt n s hbad⟩
    · have hnone : errorOf s (.trEmitWaitIndex n) = none := if_neg hbad
      obtain ⟨k, rfl⟩ := Int.eq_ofNat_of_zero_le (by omega : 0 ≤ n)
      exact .inr ⟨hnone, _, _, exec_trEmitWaitIndex_of_pos k s (by omega), rfl⟩
  | trGetBuffer =>
    by_cases hbad : s.trackCap < s.tr.buffer.length
    · exact .inl ⟨_, if_pos hbad, exec_trGetBuffer_of_lt s hbad⟩
    · exact .inr ⟨if_neg hbad, _, _, exec_trGetBuffer_of_le s (Nat.not_lt.mp hbad), rfl⟩
  | crcInit | crcCalc | crcUpdate | crcUpdateByte | crcReset | crcReseed | crcRead
  | btReset | btMfm | btFm | btRead
  | trReset | trEmitWrgate | trEmitStop | trGetTime | trGetGate => exact .inr ⟨rfl, _, _, rfl, rfl⟩
  | waitTimer | waitIndex | stop | waitHstmd | transition | wrGate => exact absurd rfl hi

theorem exec_eq_error_iff (i : Instr) (s : State) (e : OpError) (hi : agentOf i ≠ .writer) :
    exec i s = .next { s with response := some (.error e) } ↔ errorOf s i = some e := by
  obtain ⟨e', herror, hexec⟩ | ⟨hnone, t, result, hexec, hok⟩ := exec_answers i s hi
  · rw [hexec, herror]
    constructor <;> rintro ⟨⟩ <;> rfl
  · rw [hexec, hnone]
    refine ⟨fun h => ?_, fun h => nomatch h⟩
    cases h
    cases hok

/-- Settles O51: the answer is the error on the state as it was, or OK. -/
theorem failedOperationsWriteNothing : Obligations.FailedOperationsWriteNothing := by
  intro i s hi
  obtain ⟨e, -, hexec⟩ | ⟨-, t, result, hexec, hok⟩ := exec_answers i s hi
  · refine ⟨_, _, hexec, rfl, ?_⟩
    rintro _ ⟨⟩
    rfl
  · exact ⟨t, _, hexec, hok, fun _ h => nomatch h⟩

/-- Settles O50: five operations have an error, each under its own condition, and the others have none. -/
theorem errorsExactlyWhenTheRulesSay : Obligations.ErrorsExactlyWhenTheRulesSay := by
  intro i s e hi
  rw [exec_eq_error_iff i s e hi]
  cases i with
  | btRaw | trEmitFlux | trEmitWaitIndex | trGetBuffer => exact guardedError_eq_some_iff _ _ _
  | btToTrack cellTime precomp => exact errorOf_btToTrack_eq_some_iff cellTime precomp s e
  | crcInit | crcCalc | crcUpdate | crcUpdateByte | crcReset | crcReseed | crcRead
  | btReset | btMfm | btFm | btRead
  | trReset | trEmitWrgate | trEmitStop | trGetTime | trGetGate
  | waitTimer | waitIndex | stop | waitHstmd | transition | wrGate => exact iff_of_false nofun id

end Sys2Proof.Machine
end

section
/-! R330: the block reset as an input, and as the three unit resets one after the other. -/

namespace Sys2Proof.Machine

theorem step_of_reset (s : State) (hf : fetch s = .reset) : step s = .next (resetBlock (takeInput s)) := by
  simp only [step, hf]

/-- The block reset of R330 and one OK answer: the three operations write the three records of R47. -/
theorem execAll_unitResets (s : State) :
    execAll [.crcInit Config.crcDefaultSeed, .btReset, .trReset] s =
      .next ((resetBlock s).withResponse (.ok .none)) := by
  simp only [execAll, exec_crcInit, exec_btReset, exec_trReset]
  rfl

/-- Settles O47: both ways reach `resetBlock`'s records, which are those of the state after power-on. -/
theorem blockResetEqualsTheThreeResets : Obligations.BlockResetEqualsTheThreeResets := by
  intro rest s hin
  have hstep : step s = .next (resetBlock { s with inputs := rest }) := by
    rw [step_of_reset s (fetch_of_reset s rest hin), takeInput_cons s _ rest hin]
  exact ⟨_, _, hstep, execAll_unitResets s, rfl, rfl, rfl, rfl, rfl, rfl, rfl, rfl, rfl⟩

end Sys2Proof.Machine
end
